-- ==== Sys2Proof/Word.lean ====
section
/-! DEFINITION. The word types of the hub: bytes of a frame and 16-bit fields. -/

namespace Sys2Proof

/-- One byte on a field line or on the host port (R2, R180). -/
abbrev Byte := BitVec 8

/-- A 16-bit field: an input sample (R8), an output value (R7), a generation (R123). -/
abbrev Word := BitVec 16

end Sys2Proof
end

