-- ==== Sys2Proof/Syntax.lean ====
section
/-! DEFINITION. The commands of the hub, one constructor for each row of spec/opcode_table.json, and the
names their operands use. -/

namespace Sys2Proof

/-- The two field lines (00_scope section 5). -/
inductive Line where
  | s | c
  deriving DecidableEq, Repr

/-- The five stations a line can carry: S-line addresses 1 to 4 and C-line address 1 (R23, section 5.1). -/
inductive Stn where
  | s1 | s2 | s3 | s4 | c1
  deriving DecidableEq, Repr

/-- The two lift groups (R102). -/
inductive Group where
  | a | b
  deriving DecidableEq, Repr

/-- Who asks for control (R123). -/
inductive Source where
  | cab | remote
  deriving DecidableEq, Repr

/-- The seven kinds of spreader operation (R138). -/
inductive OpKind where
  | lock | unlock | size20 | size40 | size45 | flipUp | flipDown
  deriving DecidableEq, Repr

/-- A byte as a line's receiver sees it (R2, R14): when its start bit falls, counted in REFCLK periods
(1/48 µs) from the start of the slot, its value, and whether its stop bit was at the mark level. -/
structure RxByte where
  start : Nat
  value : Byte
  stopOk : Bool
  deriving DecidableEq, Repr

/-- An inbound byte of the host port (R178, R182): its value, and whether its stop bit was at the mark
level (always so in SPI). -/
structure HostByte where
  value : Byte
  stopOk : Bool
  deriving DecidableEq, Repr

/-- A request that either source may make about a group: the host's message, or the cab's request on a
group (R127, R131, R156, R114; log entry 25). -/
inductive GroupRequest where
  | remote (tag : Byte) (payload : List Byte)
  | cab (g : Group)
  deriving DecidableEq, Repr

/-- A request to start an operation: the host's OPERATE message, or the cab's start (R140). -/
inductive OpRequest where
  | remote (tag : Byte) (payload : List Byte)
  | cab (g : Group) (kind : OpKind)
  deriving DecidableEq, Repr

/-- The commands of the hub. A host request stands for a CRC-good REQUEST frame of the row's code, with
its tag and payload bytes (R183, R211). A reset names the levels of the strap pins and of LIN0 to LIN7
(bit k is LINk) that it reads (R178, R206). A verdict names the bytes the line's receiver saw in the slot
(R14, R15). -/
inductive Instr where
  | powerOnReset (portsel : Bool) (baud : BitVec 2) (lin : Byte)
  | resetPinFall
  | resetPinRelease (portsel : Bool) (baud : BitVec 2) (lin : Byte)
  | hubInfo (tag : Byte) (payload : List Byte)
  | hubStatus (tag : Byte) (payload : List Byte)
  | hubReset (tag : Byte) (payload : List Byte)
  | hubResetTakesPlace (portsel : Bool) (baud : BitVec 2) (lin : Byte)
  | modeSet (tag : Byte) (payload : List Byte)
  | modeTeardown
  | settingsSet (tag : Byte) (payload : List Byte)
  | settingsGet (tag : Byte) (payload : List Byte)
  | storeSave (tag : Byte) (payload : List Byte)
  | storeWriteEnd (verified : Bool)
  | profilePut (tag : Byte) (payload : List Byte)
  | profileGet (tag : Byte) (payload : List Byte)
  | profileDrop (tag : Byte) (payload : List Byte)
  | profileList (tag : Byte) (payload : List Byte)
  | stationList (tag : Byte) (payload : List Byte)
  | stationRestart (tag : Byte) (payload : List Byte)
  | paramRead (tag : Byte) (payload : List Byte)
  | paramWrite (tag : Byte) (payload : List Byte)
  | rawSamples (tag : Byte) (payload : List Byte)
  | rawWrite (tag : Byte) (payload : List Byte)
  | pointsRead (tag : Byte) (payload : List Byte)
  | changesClear (tag : Byte) (payload : List Byte)
  | pointNotify (tag : Byte) (payload : List Byte)
  | pointWrite (tag : Byte) (payload : List Byte)
  | pointFence (tag : Byte) (payload : List Byte)
  | groupStatus (tag : Byte) (payload : List Byte)
  | claimRead (req : GroupRequest)
  | claimSet (req : GroupRequest)
  | claimRelease (req : GroupRequest)
  | operate (req : OpRequest)
  | opStop (req : GroupRequest)
  | resultTake (tag : Byte) (payload : List Byte)
  | tripClear (req : GroupRequest)
  | alertStatus (tag : Byte) (payload : List Byte)
  | alertAck (tag : Byte) (payload : List Byte)
  | unknownRequest (code : Byte) (tag : Byte) (payload : List Byte)
  | badHostFrame (bytes : List HostByte)
  | hostByteGap (before : List HostByte) (after : HostByte)
  | wrongClassFrame (cls : Byte) (code : Byte) (tag : Byte) (payload : List Byte)
  | noticeSendBegin
  | messageSent
  | hostSilenceEvent
  | cycleStart (line : Line)
  | stationSlotStart (stn : Stn)
  | probeSlotStart (line : Line)
  | paramSlotStart (line : Line)
  | scanAnswerGood (line : Line) (rx : List RxByte)
  | scanMiss (line : Line) (rx : List RxByte)
  | rollAnswerGood (line : Line) (rx : List RxByte)
  | probeMiss (line : Line) (rx : List RxByte)
  | paramAnswerGood (line : Line) (rx : List RxByte)
  | paramMiss (line : Line) (rx : List RxByte)
  | holdoffExpiry (stn : Stn)
  | localInputFlip (pin : Fin 8) (level : Bool)
  | lampHalfPeriodExpiry (lamp : Fin 6)
  | cabLampHalfPeriodExpiry (output : Fin 12)
  | claimMarkExpiry (g : Group) (src : Source)
  | operationDeadline (g : Group)
  | soundTimerExpiry
  | restTimerExpiry
  | localInputSample (lin : Byte)
  deriving DecidableEq, Repr

end Sys2Proof
end

