-- ==== Sys2Proof/Config.lean ====
section
/-! DEFINITION. What one part fixes and the spec does not give: free values, without a body. -/

namespace Sys2Proof

/-- The part identifier of HUB_INFO. R194 names it a fixed fact and gives no value (log entry 19). -/
opaque Config.partIdentifier : Word

/-- The design revision number of HUB_INFO. R194 names it and gives no value (log entry 19). -/
opaque Config.designRevision : Byte

/-- For the `k`-th departure that R152 leaves open: whether the operation engine takes the interlock's
evaluation before the link engine's state report (log entry 10). -/
opaque Config.evaluationFirst (k : Nat) : Bool

end Sys2Proof
end

