-- ==== Sys2Proof/Machine/State.lean ====
section
/-! DEFINITION. The hub's state as plain data: one structure per block of 00_scope section 2, every field the
spec names, its reset value, and the two reason types of a step. -/

namespace Sys2Proof.Machine

open Sys2Proof

/-! ### Containers indexed by line, station, group and source -/

/-- One value per field line. -/
structure ByLine (α : Type) where
  s : α
  c : α
  deriving DecidableEq, Repr

/-- One value per station address. -/
structure ByStn (α : Type) where
  s1 : α
  s2 : α
  s3 : α
  s4 : α
  c1 : α
  deriving DecidableEq, Repr

/-- One value per lift group. -/
structure ByGroup (α : Type) where
  a : α
  b : α
  deriving DecidableEq, Repr

/-- One value per source. -/
structure BySource (α : Type) where
  cab : α
  remote : α
  deriving DecidableEq, Repr

def ByLine.get {α : Type} (x : ByLine α) : Line → α
  | .s => x.s
  | .c => x.c

def ByLine.set {α : Type} (x : ByLine α) (l : Line) (v : α) : ByLine α :=
  match l with
  | .s => { x with s := v }
  | .c => { x with c := v }

def ByStn.get {α : Type} (x : ByStn α) : Stn → α
  | .s1 => x.s1
  | .s2 => x.s2
  | .s3 => x.s3
  | .s4 => x.s4
  | .c1 => x.c1

def ByStn.set {α : Type} (x : ByStn α) (k : Stn) (v : α) : ByStn α :=
  match k with
  | .s1 => { x with s1 := v }
  | .s2 => { x with s2 := v }
  | .s3 => { x with s3 := v }
  | .s4 => { x with s4 := v }
  | .c1 => { x with c1 := v }

def ByStn.all {α : Type} (v : α) : ByStn α := ⟨v, v, v, v, v⟩

def ByGroup.get {α : Type} (x : ByGroup α) : Group → α
  | .a => x.a
  | .b => x.b

def ByGroup.set {α : Type} (x : ByGroup α) (g : Group) (v : α) : ByGroup α :=
  match g with
  | .a => { x with a := v }
  | .b => { x with b := v }

def BySource.get {α : Type} (x : BySource α) : Source → α
  | .cab => x.cab
  | .remote => x.remote

def BySource.set {α : Type} (x : BySource α) (src : Source) (v : α) : BySource α :=
  match src with
  | .cab => { x with cab := v }
  | .remote => { x with remote := v }

/-! ### Modes and settings (R197, R202) -/

/-- The hub's three modes (R197). -/
inductive Mode where
  | commission | basic | run
  deriving DecidableEq, Repr

/-- The three settings of one line (R3, R202); the period is in µs. -/
structure LineSettings where
  divisor : Nat
  period : Nat
  respUs : Nat
  deriving DecidableEq, Repr

/-- The working settings (R202). A line's three are its accepted values. `mask` bits 0 to 5 are the notice
kinds STATION, POINT, GROUP, OPERATION, CLAIM, ALERT (R190, R212). -/
structure Settings where
  line : ByLine LineSettings
  hostTimeoutMs : Nat
  claimWindowMs : Nat
  soundMs : Nat
  restMs : Nat
  qualifyMs : List Nat
  plugUsed : Bool
  mask : BitVec 6
  startMode : Mode
  deriving DecidableEq, Repr

/-- The factory defaults (R202). -/
def Settings.factory : Settings where
  line := ⟨⟨48, 5000, 40⟩, ⟨96, 10000, 40⟩⟩
  hostTimeoutMs := 1000
  claimWindowMs := 5000
  soundMs := 3000
  restMs := 7000
  qualifyMs := [20, 20, 20, 20, 20, 20, 20, 20]
  plugUsed := true
  mask := 63#6
  startMode := .basic

/-! ### Station profiles (section 3.2) -/

/-- Miss policies (R31, R47). -/
inductive Policy where
  | latch | retry | report | ignore
  deriving DecidableEq, Repr

/-- One input descriptor (R45): DIN with its qual, or AIN with its offset and gain. -/
inductive InputKind where
  | din (qual : Nat)
  | ain (offset : Nat) (gain : Int)
  deriving DecidableEq, Repr

structure InputDesc where
  kind : InputKind
  notify : Bool
  deriving DecidableEq, Repr

/-- One output descriptor (R46); its kind is always DOUT. -/
structure OutputDesc where
  initial : Bool
  notify : Bool
  deriving DecidableEq, Repr

/-- One corner's three local input indices (R48). -/
structure CornerDef where
  landed : Nat
  locked : Nat
  unlocked : Nat
  deriving DecidableEq, Repr

/-- The size part (R49). -/
structure SizePart where
  position : Nat
  out20 : Nat
  out40 : Nat
  out45 : Nat
  toleranceMm : Nat
  sizeMs : Nat
  deriving DecidableEq, Repr

/-- The flip part (R49). -/
structure FlipPart where
  upOut : Nat
  downOut : Nat
  flipMs : Nat
  deriving DecidableEq, Repr

/-- The group part (R48). -/
structure GroupPart where
  role : Group
  corners : List CornerDef
  lockOut : Nat
  unlockOut : Nat
  lockMs : Nat
  requireSlack : Bool
  size : Option SizePart
  flip : Option FlipPart
  deriving DecidableEq, Repr

/-- A profile record (section 3.2). The built-in profiles carry type code 0 (R55). -/
structure Profile where
  typeCode : Nat
  inputs : List InputDesc
  outputs : List OutputDesc
  base : Nat
  maxAgeMs : Nat
  missLimit : Nat
  policy : Policy
  retryMs : Nat
  group : Option GroupPart
  deriving DecidableEq, Repr

/-- Which profile a station was admitted under (R23, R57). -/
inductive ProfileRef where
  | table (typeCode : Nat)
  | builtInSpreader
  | builtInCab
  deriving DecidableEq, Repr

/-! ### Station records and the link engines (R17 to R42) -/

inductive StationState where
  | absent | joining | online | degraded | holdoff | fault | refused
  deriving DecidableEq, Repr

inductive RefusalReason where
  | noProfile | countMismatch | groupTaken | overlap | budget
  deriving DecidableEq, Repr

inductive LastCause where
  | admitted | refused | good | missLimit | holdoffEnd | unplugged | restart | mode
  deriving DecidableEq, Repr

inductive MissReason where
  | timeout | check | mismatch
  deriving DecidableEq, Repr

/-- What a ROLL_ANSWER reports (R9). -/
structure Identity where
  typeCode : Nat
  serial : BitVec 32
  inputs : Nat
  outputs : Nat
  deriving DecidableEq, Repr

inductive TransferKind where
  | read | write
  deriving DecidableEq, Repr

/-- A pending parameter transfer (R40). -/
structure Transfer where
  kind : TransferKind
  paramAddr : Nat
  count : Nat
  data : List Byte
  tag : Byte
  attempts : Nat
  deriving DecidableEq, Repr

/-- One station record (R23). -/
structure StationRec where
  state : StationState
  refusal : Option RefusalReason
  identity : Option Identity
  profile : Option ProfileRef
  misses : Nat
  lastMiss : Option MissReason
  limitNoted : Bool
  recovery : Nat
  holdoffExpiry : Option Nat
  lastCause : LastCause
  transfer : Option Transfer
  deriving DecidableEq, Repr

/-- R24. -/
def StationRec.reset : StationRec :=
  ⟨.absent, none, none, none, 0, none, false, 0, none, .restart, none⟩

/-- What a slot of a cycle serves (R17). -/
inductive SlotKind where
  | station (stn : Stn)
  | probe
  | param
  deriving DecidableEq, Repr

/-- A slot of the running cycle's layout (R17): start and length in µs from the cycle's start. -/
structure PlannedSlot where
  kind : SlotKind
  start : Nat
  length : Nat
  deriving DecidableEq, Repr

/-- The slot in progress, in which a request was sent (R1, R6): what it serves, the station asked, the
frame sent, the settings of its cycle, its length in µs, whether its verdict has been reached, and
whether that verdict is to be discarded because its station left or its transfer ended (R20, R41). -/
structure Slot where
  kind : SlotKind
  stn : Stn
  request : List Byte
  settings : LineSettings
  length : Nat
  judged : Bool
  void : Bool
  deriving DecidableEq, Repr

/-- One line's link engine (sections 2.1 to 2.4). -/
structure LineEngine where
  inForce : LineSettings
  awaiting : Option LineSettings
  active : List Stn
  next : List Stn
  probePtr : Nat
  paramPtr : Nat
  suspended : Bool
  running : Bool
  plan : List PlannedSlot
  slot : Option Slot
  deriving DecidableEq, Repr

/-! ### The point image (R61 to R83) -/

inductive PointKind where
  | none | din | ain | dout | lamp
  deriving DecidableEq, Repr

inductive Home where
  | none
  | localPin (pin : Nat)
  | cab (index : Nat)
  | station (address : Nat) (index : Nat)
  deriving DecidableEq, Repr

inductive Quality where
  | unmapped | waiting | pending | good | stale | fault
  deriving DecidableEq, Repr

inductive OwnerTag where
  | free | groupA | groupB | cabService | interlock
  deriving DecidableEq, Repr

/-- One point record (R62). -/
structure Point where
  kind : PointKind
  home : Home
  value : Int
  raw : Option Word
  quality : Quality
  counter : Nat
  age : Nat
  writeOut : Bool
  changed : Bool
  notify : Bool
  owner : OwnerTag
  deriving DecidableEq, Repr

/-- A station point while UNMAPPED (R62). -/
def Point.unmapped : Point :=
  ⟨.none, .none, 0, none, .unmapped, 0, 0, false, false, false, .free⟩

/-- Local input `k` after its first sample (R83). -/
def Point.localInput (k : Nat) (level : Bool) : Point :=
  ⟨.din, .localPin k, level.toNat, some (BitVec.ofNat 16 level.toNat), .good, 0, 0, false, false, false, .free⟩

/-- A permit point after reset (R83). -/
def Point.permit (k : Nat) : Point :=
  ⟨.dout, .localPin k, 0, none, .good, 0, 0, false, false, false, .interlock⟩

/-- A lamp line's point after reset (R83). -/
def Point.lampLine (k : Nat) : Point :=
  ⟨.lamp, .localPin k, 0, none, .good, 0, 0, false, false, false, .free⟩

/-- The point image after reset, with the levels of LIN0 to LIN7 (R83). -/
def Point.imageAtReset (lin : Byte) : List Point :=
  [.localInput 0 (lin.getLsbD 0), .localInput 1 (lin.getLsbD 1), .localInput 2 (lin.getLsbD 2),
   .localInput 3 (lin.getLsbD 3), .localInput 4 (lin.getLsbD 4), .localInput 5 (lin.getLsbD 5),
   .localInput 6 (lin.getLsbD 6), .localInput 7 (lin.getLsbD 7),
   .permit 0, .permit 1,
   .lampLine 2, .lampLine 3, .lampLine 4, .lampLine 5, .lampLine 6, .lampLine 7]
  ++ List.replicate 240 Point.unmapped

/-! ### The output writer and the lamp lines (R84 to R101) -/

/-- An entry of a pending list (R84). -/
inductive Entry where
  | write (output : Nat) (value : Word)
  | fence
  deriving DecidableEq, Repr

/-- A batch in flight (R84). -/
structure Batch where
  number : BitVec 4
  writes : List (Nat × Word)
  deriving DecidableEq, Repr

/-- What the output writer holds for one station (R84). -/
structure OutState where
  list : List Entry
  inFlight : Option Batch
  lastAssigned : BitVec 4
  lastAck : BitVec 4
  lastEcho : BitVec 4
  intended : List Word
  deriving DecidableEq, Repr

/-- R84. -/
def OutState.reset : OutState := ⟨[], none, 0, 0, 0, []⟩

/-- The four lamp modes (R100, R168). -/
inductive LampMode where
  | off | on | flashSlow | flashFast
  deriving DecidableEq, Repr

/-- A lamp line or a cab lamp (R100, R168): the timer is the time its half-period ends. -/
structure LampRec where
  mode : LampMode
  held : Option LampMode
  level : Bool
  timer : Option Nat
  deriving DecidableEq, Repr

/-- R100, R161. -/
def LampRec.reset : LampRec := ⟨.off, none, false, none⟩

/-! ### The interlock (R102) -/

inductive CornerState where
  | unknown | locked | unlocked | moving | conflict
  deriving DecidableEq, Repr

inductive LockState where
  | unknown | disagree | allLocked | allUnlocked | transit
  deriving DecidableEq, Repr

inductive LandedState where
  | unknown | allLanded | noneLanded | partly
  deriving DecidableEq, Repr

inductive SizeState where
  | notFitted | unknown | at20 | at40 | at45 | between
  deriving DecidableEq, Repr

/-- One corner of a group record, by point index (R102). -/
structure Corner where
  landed : Nat
  locked : Nat
  unlocked : Nat
  state : CornerState
  deriving DecidableEq, Repr

/-- One group record (R102). -/
structure GroupRec where
  bound : Bool
  station : Option Stn
  corners : List Corner
  position : Option Nat
  lock : LockState
  landed : LandedState
  size : SizeState
  slackReady : Bool
  trip : Bool
  permit : Bool
  deriving DecidableEq, Repr

/-- R102's last column. -/
def GroupRec.unbound : GroupRec :=
  ⟨false, none, [], none, .unknown, .unknown, .unknown, false, false, false⟩

/-! ### Ownership (R123) -/

inductive Owner where
  | none | cab | remote
  deriving DecidableEq, Repr

/-- A claim mark (R125). -/
structure Mark where
  generation : Word
  expiry : Nat
  deriving DecidableEq, Repr

structure OwnerRec where
  owner : Owner
  generation : Word
  marks : BySource (Option Mark)
  deriving DecidableEq, Repr

/-- R123. -/
def OwnerRec.reset : OwnerRec := ⟨.none, 0, ⟨none, none⟩⟩

inductive ClaimCause where
  | set | release | cabLost | hostSilent | unbound | mode
  deriving DecidableEq, Repr

/-! ### The operation engine (R139, R157) -/

inductive Phase where
  | queued | driving
  deriving DecidableEq, Repr

/-- An operation record (R139). -/
structure OpRec where
  kind : OpKind
  source : Source
  start : Nat
  deadline : Nat
  phase : Phase
  landingRequired : Bool
  station : Stn
  deriving DecidableEq, Repr

inductive AbortReason where
  | link | owner | mode | lifted | stopped
  deriving DecidableEq, Repr

/-- The reply statuses (R186). -/
inductive Status where
  | ok | busy | badCode | badArg | mode | notOnline | notOwner | owned | noGroup | staleClaim | interlock
  | notFitted | queueFull | budget | noRoom | inUse | badProfile | notFound | timeout | rejected | linkLost
  | storeFailed
  deriving DecidableEq, Repr

/-- A request of the cab that can be refused (R157, R159). -/
inductive CabRequest where
  | op (kind : OpKind)
  | stop | claimRead | claimSet | claimRelease | tripClear
  deriving DecidableEq, Repr

/-- The content of a result slot (R157). -/
inductive OpResult where
  | done (kind : OpKind)
  | timedOut (kind : OpKind) (phase : Phase)
  | aborted (kind : OpKind) (reason : AbortReason)
  | refused (req : CabRequest) (status : Status)
  deriving DecidableEq, Repr

/-! ### The cab service (R161) -/

/-- The copy of one group that the cab service keeps (R161). -/
structure GroupCopy where
  bound : Bool
  station : Option Stn
  lock : LockState
  landed : LandedState
  size : SizeState
  trip : Bool
  permit : Bool
  owner : Owner
  cabMark : Bool
  failure : Bool
  deriving DecidableEq, Repr

/-- R161's last column. -/
def GroupCopy.reset : GroupCopy :=
  ⟨false, none, .unknown, .unknown, .unknown, false, false, .none, false, false⟩

inductive AlertState where
  | quiet | sounding | resting
  deriving DecidableEq, Repr

/-- The five alert reasons (R173). -/
inductive AlertReason where
  | opTimeout | opAborted | loadInsecure | stationFault | linkLostLoaded
  deriving DecidableEq, Repr

/-- A set of alert reasons (R173): each present or absent. -/
structure AlertReasons where
  opTimeout : Bool
  opAborted : Bool
  loadInsecure : Bool
  stationFault : Bool
  linkLostLoaded : Bool
  deriving DecidableEq, Repr

def AlertReasons.empty : AlertReasons := ⟨false, false, false, false, false⟩

/-- The alert (R173); the timers are times of expiry. -/
structure Alert where
  state : AlertState
  reasons : AlertReasons
  count : Nat
  soundTimer : Option Nat
  restTimer : Option Nat
  deriving DecidableEq, Repr

structure CabState where
  selected : Group
  copies : ByGroup GroupCopy
  station : StationState
  lamps : List LampRec
  alert : Alert
  deriving DecidableEq, Repr

/-- R161, R173. -/
def CabState.reset : CabState where
  selected := .a
  copies := ⟨.reset, .reset⟩
  station := .absent
  lamps := List.replicate 12 LampRec.reset
  alert := ⟨.quiet, .empty, 0, none, none⟩

/-! ### The host port (R178 to R196) -/

inductive PortKind where
  | uart | spi
  deriving DecidableEq, Repr

/-- The seven notice kinds (R187). -/
inductive NoticeKind where
  | station | point | group | operation | claim | alert | hub
  deriving DecidableEq, Repr

/-- The three sorts of outbound message (R188). -/
inductive MessageSort where
  | countedReply | uncountedReply | notice
  deriving DecidableEq, Repr

/-- A message in the outbound FIFO (R188). `begun` says that a notice's first byte has been sent, and
`overflowBit` what its header then carried (R189). -/
structure Message where
  sort : MessageSort
  code : Byte
  tag : Byte
  payload : List Byte
  begun : Bool
  overflowBit : Bool
  deriving DecidableEq, Repr

/-- An entry of the outstanding-request table (R184). -/
structure Outstanding where
  code : Byte
  tag : Byte
  deriving DecidableEq, Repr

/-- The six counters of the host port (R195). -/
structure PortCounters where
  badCheck : Nat
  badLength : Nat
  breaks : Nat
  wrongClass : Nat
  droppedReplies : Nat
  droppedNotices : Nat
  deriving DecidableEq, Repr

def PortCounters.zero : PortCounters := ⟨0, 0, 0, 0, 0, 0⟩

/-- The host port (R196). `framer` holds the bytes of the frame being assembled, start byte first (empty in
HUNT). `resetBy` is present from a HUB_RESET's taking until its reset (R191), and `lastFrame` holds the
bytes of the last message that left the FIFO. `sent` counts the bytes of the FIFO's head message that have
been sent (R179, R188). -/
structure HostPort where
  kind : PortKind
  rate : BitVec 2
  framer : List HostByte
  table : List Outstanding
  fifo : List Message
  sent : Nat
  overflowed : Bool
  counters : PortCounters
  silent : Bool
  silenceTimer : Option Nat
  resetBy : Option Nat
  lastFrame : List Byte
  deriving DecidableEq, Repr

/-! ### Modes and the settings store (R197 to R206) -/

/-- A pending mode change (R197). -/
structure ModeChange where
  target : Mode
  tag : Byte
  deriving DecidableEq, Repr

structure ModeRec where
  mode : Mode
  change : Option ModeChange
  deriving DecidableEq, Repr

/-- What an image with a good CRC holds (section 11.5). -/
structure Stored where
  settings : Settings
  profiles : List Profile
  deriving DecidableEq, Repr

/-- A STORE_SAVE in progress: its snapshot and its tag (R205). -/
structure Save where
  snapshot : Stored
  tag : Byte
  deriving DecidableEq, Repr

/-- The settings store. `image` is absent when its CRC is bad (R204; log entry 26). -/
structure Store where
  working : Settings
  image : Option Stored
  invalid : Bool
  save : Option Save
  deriving DecidableEq, Repr

/-- A raw record of COMMISSION mode (R201). -/
structure RawRec where
  samples : Option (List Word)
  outputsSafe : Bool
  age : Nat
  deriving DecidableEq, Repr

/-! ### The whole state -/

/-- The hub. `held` says that the RESET pin is low (R206); `now` is the millisecond clock (R123);
`choices` picks the next free value of `Config.evaluationFirst`; `pending` is the queue of commands that
are waiting, first in, first out. -/
structure State where
  lines : ByLine LineEngine
  stations : ByStn StationRec
  profiles : List Profile
  points : List Point
  staleLimits : ByStn (Option Nat)
  outputs : ByStn OutState
  lampLines : List LampRec
  groups : ByGroup GroupRec
  permitPins : ByGroup Bool
  owners : ByGroup OwnerRec
  ops : ByGroup (Option OpRec)
  results : ByGroup (BySource (Option OpResult))
  cab : CabState
  port : HostPort
  hub : ModeRec
  raw : ByStn (Option RawRec)
  store : Store
  held : Bool
  now : Nat
  choices : Nat
  pending : List Instr
  deriving DecidableEq, Repr

/-- The machine stops with a fault. The spec gives the hub no fault of its own: a request that cannot be done
is answered with a status (R186), a bad frame is counted (R182) and a missed answer is a verdict (R15). No
command raises one, so the type has no constructor: safe. -/
inductive Fault where
  deriving DecidableEq, Repr

/-- The reasons for which the model gives a command no meaning. -/
inductive Refusal where
  /-- `exec` raises it for a command that has no meaning yet. Safe: the machine stops. -/
  | notModelled (mnemonic : String)
  deriving DecidableEq, Repr

/-- The S-line's engine right after reset under the factory settings, with probing suspended because the
first sample of LIN0 is 0 and plug_used is 1 (R24, R206); the first cycle has started, with the probe and
parameter slots only (R17; the lengths are section 2.2's 300 and 930 µs). -/
def LineEngine.resetS : LineEngine :=
  ⟨⟨48, 5000, 40⟩, none, [], [], 4, 4, true, true, [⟨.probe, 0, 300⟩, ⟨.param, 300, 930⟩], none⟩

/-- The C-line's engine right after reset under the factory settings (R24; section 2.2's 560 and
1,820 µs). -/
def LineEngine.resetC : LineEngine :=
  ⟨⟨96, 10000, 40⟩, none, [], [], 1, 1, false, true, [⟨.probe, 0, 560⟩, ⟨.param, 560, 1820⟩], none⟩

/-- The hub right after power-on reset of a part whose image was never written, so that the factory
defaults are in force and a HUB notice STORE_INVALID is the first message (R204), with the straps and LIN0
to LIN7 low (log entry 4). -/
def State.reset : State where
  lines := ⟨.resetS, .resetC⟩
  stations := .all .reset
  profiles := []
  points := Point.imageAtReset 0
  staleLimits := .all none
  outputs := .all .reset
  lampLines := List.replicate 6 LampRec.reset
  groups := ⟨.unbound, .unbound⟩
  permitPins := ⟨false, false⟩
  owners := ⟨.reset, .reset⟩
  ops := ⟨none, none⟩
  results := ⟨⟨none, none⟩, ⟨none, none⟩⟩
  cab := .reset
  port :=
    { kind := .uart, rate := 0, framer := [], table := [],
      fifo := [⟨.notice, 134, 0, [2], false, false⟩], sent := 0,
      overflowed := false, counters := .zero, silent := false, silenceTimer := some 1000, resetBy := none,
      lastFrame := [] }
  hub := ⟨.basic, none⟩
  raw := .all none
  store := ⟨.factory, none, true, none⟩
  held := false
  now := 0
  choices := 0
  pending := []

end Sys2Proof.Machine
end

