-- ==== Sys2Proof/Machine/Wire.lean ====
section
/-! DEFINITION. Bytes on the wires: byte order, the CRC (R5, R181), the field frames (R207, R208), the host
frames (R209, R210) and the code numbers of R212. -/

namespace Sys2Proof.Machine

open Sys2Proof

/-! ### Byte order (R207, R209: most significant byte first) -/

def byteOf (n : Nat) : Byte := BitVec.ofNat 8 n

/-- Two bytes of the low 16 bits of `n`, most significant first. -/
def be16 (n : Nat) : List Byte := [byteOf (n / 256), byteOf n]

/-- Four bytes of the low 32 bits of `n`, most significant first. -/
def be32 (n : Nat) : List Byte :=
  [byteOf (n / 16777216), byteOf (n / 65536), byteOf (n / 256), byteOf n]

/-- Two bytes of a signed value in two's complement. -/
def be16Int (i : Int) : List Byte := be16 (i % 65536).toNat

def u16 (hi lo : Byte) : Nat := hi.toNat * 256 + lo.toNat

def u32 (b3 b2 b1 b0 : Byte) : Nat :=
  ((b3.toNat * 256 + b2.toNat) * 256 + b1.toNat) * 256 + b0.toNat

/-- The signed value of a 16-bit number in two's complement. -/
def signed16 (n : Nat) : Int := if n < 32768 then n else (n : Int) - 65536

def bit (b : Bool) : Byte := if b then 1 else 0

/-! ### The CRC of both ports (R5, R181) -/

/-- One bit of the register: x^16 + x^12 + x^5 + 1 is 1021 hexadecimal, 4129. -/
def crcBit (r : Word) : Word :=
  if r.getLsbD 15 then (r <<< 1) ^^^ 4129#16 else r <<< 1

/-- One byte, most significant bit first. -/
def crcByte (r : Word) (b : Byte) : Word :=
  let r := r ^^^ (b.zeroExtend 16 <<< 8)
  crcBit (crcBit (crcBit (crcBit (crcBit (crcBit (crcBit (crcBit r)))))))

/-- The check of a run of bytes: register at all ones, no final inversion. -/
def crc16 (bytes : List Byte) : Word := bytes.foldl crcByte 65535#16

/-- The two check bytes, most significant first. -/
def checkBytes (bytes : List Byte) : List Byte := be16 (crc16 bytes).toNat

/-! ### Field link frames (R207, R208) -/

inductive FrameKind where
  | scan | scanAnswer | roll | rollAnswer | paramGet | paramPut | paramAnswer
  deriving DecidableEq, Repr

def frameKindCode : FrameKind → Byte
  | .scan => 1
  | .scanAnswer => 2
  | .roll => 3
  | .rollAnswer => 4
  | .paramGet => 5
  | .paramPut => 6
  | .paramAnswer => 7

def syncByte : Byte := 165

/-- The largest payload of a field frame (section 1.2). -/
def maxFieldPayload : Nat := 64

/-- A field frame: `answer` sets bit 7 of the address byte (R207). -/
def fieldFrame (answer : Bool) (address : Nat) (kind : FrameKind) (payload : List Byte) : List Byte :=
  let body := [byteOf (address + if answer then 128 else 0), frameKindCode kind, byteOf payload.length]
    ++ payload
  syncByte :: body ++ checkBytes body

/-! ### Stations, lines and addresses (R23) -/

def lineOf : Stn → Line
  | .c1 => .c
  | _ => .s

def addressOf : Stn → Nat
  | .s1 => 1
  | .s2 => 2
  | .s3 => 3
  | .s4 => 4
  | .c1 => 1

/-- The addresses of a line, ascending: 1 to 4 on the S-line, 1 on the C-line. -/
def lineStations : Line → List Stn
  | .s => [.s1, .s2, .s3, .s4]
  | .c => [.c1]

def stationAt (l : Line) (address : Nat) : Option Stn :=
  (lineStations l).find? (fun k => addressOf k == address)

def allStations : List Stn := [.s1, .s2, .s3, .s4, .c1]

/-! ### Codes used in payloads (R212) -/

def lineCode : Line → Byte
  | .s => 0
  | .c => 1

def groupCode : Group → Byte
  | .a => 0
  | .b => 1

def sourceCode : Source → Byte
  | .cab => 0
  | .remote => 1

def pointKindCode : PointKind → Byte
  | .none => 0
  | .din => 1
  | .ain => 2
  | .dout => 3
  | .lamp => 4

def qualityCode : Quality → Byte
  | .unmapped => 0
  | .waiting => 1
  | .pending => 2
  | .good => 3
  | .stale => 4
  | .fault => 5

def stationStateCode : StationState → Byte
  | .absent => 0
  | .joining => 1
  | .online => 2
  | .degraded => 3
  | .holdoff => 4
  | .fault => 5
  | .refused => 6

def refusalCode : Option RefusalReason → Byte
  | none => 0
  | some .noProfile => 1
  | some .countMismatch => 2
  | some .groupTaken => 3
  | some .overlap => 4
  | some .budget => 5

def lastCauseCode : LastCause → Byte
  | .admitted => 0
  | .refused => 1
  | .good => 2
  | .missLimit => 3
  | .holdoffEnd => 4
  | .unplugged => 5
  | .restart => 6
  | .mode => 7

def missReasonCode : Option MissReason → Byte
  | none => 0
  | some .timeout => 1
  | some .check => 2
  | some .mismatch => 3

/-- Profile kind and type code; a built-in profile's type code is sent as 0 (R55). With profile kind none the type
code, for which R211 gives no value, is sent as 0 too (log entry 20). -/
def profileRefBytes : Option ProfileRef → List Byte
  | none => 0 :: be16 0
  | some (.table t) => 1 :: be16 t
  | some .builtInSpreader => 2 :: be16 0
  | some .builtInCab => 3 :: be16 0

def policyCode : Policy → Byte
  | .latch => 0
  | .retry => 1
  | .report => 2
  | .ignore => 3

def cornerStateCode : CornerState → Byte
  | .unknown => 0
  | .locked => 1
  | .unlocked => 2
  | .moving => 3
  | .conflict => 4

def lockStateCode : LockState → Byte
  | .unknown => 0
  | .disagree => 1
  | .allLocked => 2
  | .allUnlocked => 3
  | .transit => 4

def landedStateCode : LandedState → Byte
  | .unknown => 0
  | .allLanded => 1
  | .noneLanded => 2
  | .partly => 3

def sizeStateCode : SizeState → Byte
  | .notFitted => 0
  | .unknown => 1
  | .at20 => 2
  | .at40 => 3
  | .at45 => 4
  | .between => 5

def ownerCode : Owner → Byte
  | .none => 0
  | .cab => 1
  | .remote => 2

def claimCauseCode : ClaimCause → Byte
  | .set => 0
  | .release => 1
  | .cabLost => 2
  | .hostSilent => 3
  | .unbound => 4
  | .mode => 5

def opKindCode : OpKind → Byte
  | .lock => 0
  | .unlock => 1
  | .size20 => 2
  | .size40 => 3
  | .size45 => 4
  | .flipUp => 5
  | .flipDown => 6

def cabRequestCode : CabRequest → Byte
  | .op k => opKindCode k
  | .stop => 7
  | .claimRead => 8
  | .claimSet => 9
  | .claimRelease => 10
  | .tripClear => 11

def phaseCode : Phase → Byte
  | .queued => 0
  | .driving => 1

def abortReasonCode : AbortReason → Byte
  | .link => 0
  | .owner => 1
  | .mode => 2
  | .lifted => 3
  | .stopped => 4

def modeCode : Mode → Byte
  | .commission => 0
  | .basic => 1
  | .run => 2

def alertStateCode : AlertState → Byte
  | .quiet => 0
  | .sounding => 1
  | .resting => 2

/-- The alert reason set as one byte: bit 0 OP_TIMEOUT to bit 4 LINK_LOST_LOADED. -/
def alertReasonsByte (r : AlertReasons) : Byte :=
  byteOf (r.opTimeout.toNat + 2 * r.opAborted.toNat + 4 * r.loadInsecure.toNat
    + 8 * r.stationFault.toNat + 16 * r.linkLostLoaded.toNat)

def lampModeCode : LampMode → Byte
  | .off => 0
  | .on => 1
  | .flashSlow => 2
  | .flashFast => 3

def portKindCode : PortKind → Byte
  | .uart => 0
  | .spi => 1

/-- The reply statuses (R186). -/
def statusCode : Status → Byte
  | .ok => 0
  | .busy => 1
  | .badCode => 2
  | .badArg => 3
  | .mode => 4
  | .notOnline => 5
  | .notOwner => 6
  | .owned => 7
  | .noGroup => 8
  | .staleClaim => 9
  | .interlock => 10
  | .notFitted => 11
  | .queueFull => 12
  | .budget => 13
  | .noRoom => 14
  | .inUse => 15
  | .badProfile => 16
  | .notFound => 17
  | .timeout => 18
  | .rejected => 19
  | .linkLost => 20
  | .storeFailed => 21

/-- The notice codes (R187). -/
def noticeCode : NoticeKind → Byte
  | .station => 128
  | .point => 129
  | .group => 130
  | .operation => 131
  | .claim => 132
  | .alert => 133
  | .hub => 134

/-- Values read from a payload byte; `none` where the number has no meaning (R210, R212). -/
def lineOfByte (b : Byte) : Option Line :=
  if b = 0 then some .s else if b = 1 then some .c else none

def groupOfByte (b : Byte) : Option Group :=
  if b = 0 then some .a else if b = 1 then some .b else none

def modeOfByte (b : Byte) : Option Mode :=
  if b = 0 then some .commission else if b = 1 then some .basic else if b = 2 then some .run else none

def opKindOfByte (b : Byte) : Option OpKind :=
  match b.toNat with
  | 0 => some .lock
  | 1 => some .unlock
  | 2 => some .size20
  | 3 => some .size40
  | 4 => some .size45
  | 5 => some .flipUp
  | 6 => some .flipDown
  | _ => none

def lampModeOfNat : Nat → Option LampMode
  | 0 => some .off
  | 1 => some .on
  | 2 => some .flashSlow
  | 3 => some .flashFast
  | _ => none

def lampModeNat : LampMode → Nat
  | .off => 0
  | .on => 1
  | .flashSlow => 2
  | .flashFast => 3

def boolOfByte (b : Byte) : Option Bool :=
  if b = 0 then some false else if b = 1 then some true else none

/-! ### Host frames (R209, R210) -/

def startByte : Byte := 126

/-- The byte an SPI port shifts out while the FIFO holds no unsent byte (R209). -/
def fillerByte : Byte := 255

def maxHostPayload : Nat := 1024

/-- The class byte as sent: REPLY 2, NOTICE 3, with OVERFLOWED in bit 7 of a notice (R210). -/
def classByte (m : Message) : Byte :=
  match m.sort with
  | .notice => if m.overflowBit then 131 else 3
  | _ => 2

/-- A whole host frame with the class byte given (R209). -/
def hostFrame (cls code tag : Byte) (payload : List Byte) : List Byte :=
  let body := be16 payload.length ++ [cls, code, tag] ++ payload
  startByte :: body ++ checkBytes body

/-- The bytes of an outbound message (R180, R209, R210). -/
def messageBytes (m : Message) : List Byte := hostFrame (classByte m) m.code m.tag m.payload

end Sys2Proof.Machine
end

