-- ==== Sys2Proof/Machine/Ops.lean ====
section
/-! DEFINITION. The named operations shared by every command: updating one block's part of the state, time,
the outbound FIFO (R188, R189), taking a request (R183, R184) and profiles by reference (R57 to R59). -/

namespace Sys2Proof.Machine

open Sys2Proof

/-! ### One block's part of the state -/

def updLine (l : Line) (f : LineEngine → LineEngine) (s : State) : State :=
  { s with lines := s.lines.set l (f (s.lines.get l)) }

def updStation (k : Stn) (f : StationRec → StationRec) (s : State) : State :=
  { s with stations := s.stations.set k (f (s.stations.get k)) }

def updOut (k : Stn) (f : OutState → OutState) (s : State) : State :=
  { s with outputs := s.outputs.set k (f (s.outputs.get k)) }

def updGroup (g : Group) (f : GroupRec → GroupRec) (s : State) : State :=
  { s with groups := s.groups.set g (f (s.groups.get g)) }

def updOwner (g : Group) (f : OwnerRec → OwnerRec) (s : State) : State :=
  { s with owners := s.owners.set g (f (s.owners.get g)) }

def setOp (g : Group) (o : Option OpRec) (s : State) : State :=
  { s with ops := s.ops.set g o }

def setResult (g : Group) (src : Source) (r : Option OpResult) (s : State) : State :=
  { s with results := s.results.set g ((s.results.get g).set src r) }

def updCab (f : CabState → CabState) (s : State) : State := { s with cab := f s.cab }

def updPort (f : HostPort → HostPort) (s : State) : State := { s with port := f s.port }

def updCopy (g : Group) (f : GroupCopy → GroupCopy) (s : State) : State :=
  updCab (fun c => { c with copies := c.copies.set g (f (c.copies.get g)) }) s

/-- A point of the image by its index; an index above 255 reads as UNMAPPED (R61, R62). -/
def pointAt (s : State) (i : Nat) : Point := s.points.getD i Point.unmapped

def groupsList : List Group := [.a, .b]

/-- A count that stops at `top` instead of wrapping (00_scope section 6). -/
def satSucc (top n : Nat) : Nat := min top (n + 1)

/-! ### Time -/

/-- An expiry is taken: the clock stands at or after it (log entry 3). -/
def reachTime (t : Nat) (s : State) : State := { s with now := max s.now t }

/-! ### Station states (section 2.4) -/

def isScanned : StationState → Bool
  | .joining | .online | .degraded => true
  | _ => false

def isMapped : StationState → Bool
  | .joining | .online | .degraded | .holdoff | .fault => true
  | _ => false

def isOnline : StationState → Bool
  | .online | .degraded => true
  | _ => false

def stateOf (s : State) (k : Stn) : StationState := (s.stations.get k).state

/-! ### Profiles (R57 to R59) -/

/-- Input `k` of the built-in profiles: DIN, qual 2, notify 0. -/
def builtInInput : InputDesc := ⟨.din 2, false⟩

/-- An output of the built-in profiles: DOUT, initial value 0, notify 0. -/
def builtInOutput : OutputDesc := ⟨false, false⟩

/-- The built-in BASIC spreader profile (R58). -/
def spreaderProfile : Profile where
  typeCode := 0
  inputs := List.replicate 12 builtInInput
  outputs := List.replicate 2 builtInOutput
  base := 48
  maxAgeMs := 40
  missLimit := 3
  policy := .retry
  retryMs := 2000
  group := some
    { role := .a
      corners := [⟨0, 1, 2⟩, ⟨3, 4, 5⟩, ⟨6, 7, 8⟩, ⟨9, 10, 11⟩]
      lockOut := 0
      unlockOut := 1
      lockMs := 2500
      requireSlack := false
      size := none
      flip := none }

/-- The built-in cab profile (R59). -/
def cabProfile : Profile where
  typeCode := 0
  inputs := List.replicate 16 builtInInput
  outputs := List.replicate 16 builtInOutput
  base := 16
  maxAgeMs := 100
  missLimit := 3
  policy := .retry
  retryMs := 1000
  group := none

/-- The table's profile of a type code (R43). -/
def tableProfile (s : State) (t : Nat) : Option Profile :=
  s.profiles.find? (fun p => p.typeCode == t)

def resolveProfile (s : State) : ProfileRef → Option Profile
  | .table t => tableProfile s t
  | .builtInSpreader => some spreaderProfile
  | .builtInCab => some cabProfile

/-- The profile a station was admitted under (R57): absent outside the mapped states and in COMMISSION. -/
def profileOf (s : State) (k : Stn) : Option Profile :=
  (s.stations.get k).profile.bind (resolveProfile s)

/-- The group part of the profile of the station that carries a group (R102). -/
def groupPartOf (s : State) (g : Group) : Option GroupPart := do
  let k ← (s.groups.get g).station
  let p ← profileOf s k
  p.group

/-- The group that a station carries, if any. -/
def groupAt (s : State) (k : Stn) : Option Group :=
  groupsList.find? (fun g => (s.groups.get g).bound && (s.groups.get g).station == some k)

/-- The input count by which a station's answers and slot are measured (R15, R19). -/
def inputCount (s : State) (k : Stn) : Nat :=
  match s.hub.mode with
  | .commission => ((s.stations.get k).identity.map (·.inputs)).getD 0
  | _ => ((profileOf s k).map (·.inputs.length)).getD 0

def windowSize (p : Profile) : Nat := p.inputs.length + p.outputs.length

/-- The point index of local output `j` (R44). -/
def outputPoint (p : Profile) (j : Nat) : Nat := p.base + p.inputs.length + j

/-! ### The outbound FIFO (R188 to R190) -/

def countSort (sort : MessageSort) (fifo : List Message) : Nat :=
  (fifo.filter (fun m => m.sort == sort)).length

/-- The limits of R188: 8 uncounted replies, 32 notices. -/
def uncountedLimit : Nat := 8
def noticeLimit : Nat := 32
def tableLimit : Nat := 8
def counterTop : Nat := 65535

def pushMessage (m : Message) (s : State) : State :=
  updPort (fun p => { p with fifo := p.fifo ++ [m] }) s

/-- The reply to an outstanding request enters the FIFO at once (R185, R188). -/
def replyBytes (code tag : Byte) (st : Status) (body : List Byte) (s : State) : State :=
  pushMessage ⟨.countedReply, code, tag, statusCode st :: body, false, false⟩ s

/-- The reply of R184's checks: it holds no table entry, and is dropped when 8 of its sort wait. -/
def uncountedReply (code tag : Byte) (st : Status) (s : State) : State :=
  if uncountedLimit ≤ countSort .uncountedReply s.port.fifo then
    updPort (fun p => { p with counters :=
      { p.counters with droppedReplies := satSucc counterTop p.counters.droppedReplies } }) s
  else pushMessage ⟨.uncountedReply, code, tag, [statusCode st], false, false⟩ s

/-- Whether a notice kind is on (R190): HUB has no bit and is always on. -/
def noticeOn (mask : BitVec 6) : NoticeKind → Bool
  | .station => mask.getLsbD 0
  | .point => mask.getLsbD 1
  | .group => mask.getLsbD 2
  | .operation => mask.getLsbD 3
  | .claim => mask.getLsbD 4
  | .alert => mask.getLsbD 5
  | .hub => true

/-- A block makes a notice: masked, dropped with OVERFLOWED, or placed (R189). -/
def notice (kind : NoticeKind) (payload : List Byte) (s : State) : State :=
  if noticeOn s.store.working.mask kind then
    if noticeLimit ≤ countSort .notice s.port.fifo then
      updPort (fun p => { p with
        overflowed := true
        counters := { p.counters with droppedNotices := satSucc counterTop p.counters.droppedNotices } }) s
    else pushMessage ⟨.notice, noticeCode kind, 0, payload, false, false⟩ s
  else s

/-- The three HUB events (R193, R211). -/
def hubModeChanged (m : Mode) (s : State) : State := notice .hub [0, modeCode m] s
def hubHostSilent (s : State) : State := notice .hub [1] s

/-! ### Taking a request (R183, R184, R191, R192) -/

/-- The port takes no frame while the RESET pin is low (R206) or a HUB_RESET waits for its reset (R191). -/
def portClosed (s : State) : Bool := s.held || s.port.resetBy.isSome

/-- The host-silence timer restarts and the silent flag is cleared (R183, R192). -/
def restartSilence (s : State) : State :=
  let t := s.store.working.hostTimeoutMs
  updPort (fun p => { p with
    silent := false
    silenceTimer := if t = 0 then none else some (s.now + t) }) s

def tagHeld (tag : Byte) (s : State) : Bool := s.port.table.any (fun o => o.tag == tag)

def enterTable (code tag : Byte) (s : State) : State :=
  updPort (fun p => { p with table := p.table ++ [⟨code, tag⟩] }) s

/-- What every CRC-good request does as it is taken (R183): the silence timer restarts, and the framer is back in
HUNT. -/
def hearRequest (s : State) : State := updPort (fun p => { p with framer := [] }) (restartSilence s)

/-- A request that passes R184 is outstanding. -/
def acceptRequest (code tag : Byte) (s : State) : State := enterTable code tag (hearRequest s)

/-- A CRC-good request of a known code is taken (R183, R184): the tag and the table's room are checked, and the
owning block's `handle` acts on the state that holds the entry. -/
def takeRequest (code tag : Byte) (handle : State → State) (s : State) : State :=
  if portClosed s then s
  else if tagHeld tag s then uncountedReply code tag .badArg (hearRequest s)
  else if tableLimit ≤ s.port.table.length then uncountedReply code tag .busy (hearRequest s)
  else handle (acceptRequest code tag s)

/-- A quick request that only reads: its reply is made from the state that holds its entry. -/
def quickReply (code tag : Byte) (answer : State → Status × List Byte) (s : State) : State :=
  takeRequest code tag (fun s => replyBytes code tag (answer s).1 (answer s).2 s) s

/-- A command of the block while the RESET pin is low has no effect (R206; log entry 24). -/
def unlessHeld (f : State → State) (s : State) : State := if s.held then s else f s

end Sys2Proof.Machine
end

