-- ==== Sys2Proof/Machine/Points.lean ====
section
/-! DEFINITION. The point image (chapter 4): change sets, mapping, samples, ageing and output reports. -/

namespace Sys2Proof.Machine

open Sys2Proof

/-- An entry of a change set (R77), with whether the point asks for a notice (R80; at an unmapping the flag
as it stood before it, R66). -/
structure Change where
  index : Nat
  oldValue : Int
  newValue : Int
  oldQuality : Quality
  newQuality : Quality
  notify : Bool
  deriving DecidableEq, Repr

def samePoint (p q : Point) : Bool := p.value == q.value && p.quality == q.quality

def changeOf (i : Nat) (p q : Point) : Change :=
  ⟨i, p.value, q.value, p.quality, q.quality, if q.quality = .unmapped then p.notify else q.notify⟩

/-- The entries of the change set from one image to another, in ascending index order (R77, R80). -/
def changesFrom : Nat → List Point → List Point → List Change
  | i, p :: ps, q :: qs =>
    if samePoint p q then changesFrom (i + 1) ps qs else changeOf i p q :: changesFrom (i + 1) ps qs
  | _, _, _ => []

/-- Every entry sets its point's changed flag (R79). -/
def flagChanges : List Point → List Point → List Point
  | p :: ps, q :: qs =>
    (if samePoint p q then q else { q with changed := true }) :: flagChanges ps qs
  | _, qs => qs

/-- The POINT notice of a change entry (R80, R211), of a mapping too (log entry 41). -/
def pointNotice (s : State) (c : Change) : State :=
  if c.notify then notice .point ([byteOf c.index] ++ be16Int c.newValue ++ [qualityCode c.newQuality]) s
  else s

/-- The image takes its new points: flags are set and POINT notices queued (R77 to R80). The change set is
what the other receivers of R78 are then handed. -/
def commitPoints (new : List Point) (s : State) : State × List Change :=
  let cs := changesFrom 0 s.points new
  (cs.foldl pointNotice { s with points := flagChanges s.points new }, cs)

/-- A change of output points, which no other receiver of R78 reads (log entry 27). -/
def commitQuiet (new : List Point) (s : State) : State := (commitPoints new s).1

/-- One point's record replaced, without a change of value or quality. -/
def setPoint (i : Nat) (f : Point → Point) (points : List Point) : List Point :=
  points.set i (f (points.getD i Point.unmapped))

/-- `f k` applied to the point at `base + k`, for each k below `n`. -/
def mapWindow (f : Nat → Point → Point) (base n : Nat) (points : List Point) : List Point :=
  go base n 0 points
where
  go : Nat → Nat → Nat → List Point → List Point
    | _, _, _, [] => []
    | b + 1, n, k, p :: ps => p :: go b n k ps
    | 0, 0, _, ps => ps
    | 0, n + 1, k, p :: ps => f k p :: go 0 n (k + 1) ps

/-! ### The stale limit (R71) -/

def clamp (lo hi n : Nat) : Nat := max lo (min hi n)

def staleLimit (maxAgeMs period : Nat) : Nat := clamp 1 250 (maxAgeMs * 1000 / period)

/-! ### Mapping and unmapping (R60, R64 to R66) -/

/-- The outputs that a group part names: its drive outputs (R48, R49, R138). -/
def groupOutputs (gp : GroupPart) : List Nat :=
  [gp.lockOut, gp.unlockOut]
    ++ (match gp.size with
        | some z => [z.out20, z.out40, z.out45]
        | none => [])
    ++ (match gp.flip with
        | some f => [f.upOut, f.downOut]
        | none => [])

def roleTag : Group → OwnerTag
  | .a => .groupA
  | .b => .groupB

/-- The owner tag of local output `j` (R60): the group's role, the cab service's outputs 0 to 11, or free. -/
def outputTag (k : Stn) (p : Profile) (j : Nat) : OwnerTag :=
  match k with
  | .c1 => if j < 12 then .cabService else .free
  | _ =>
    match p.group with
    | some gp => if (groupOutputs gp).contains j then roleTag gp.role else .free
    | none => .free

def homeOf (k : Stn) (j : Nat) : Home :=
  match k with
  | .c1 => .cab j
  | _ => .station (addressOf k) j

def inputPointKind : InputKind → PointKind
  | .din _ => .din
  | .ain _ _ => .ain

/-- The point a window gives to index `base + k` at mapping (R64). -/
def mappedPoint (stn : Stn) (p : Profile) (k : Nat) (old : Point) : Point :=
  match p.inputs[k]? with
  | some d =>
    ⟨inputPointKind d.kind, homeOf stn k, 0, none, .waiting, 0, 0, false, old.changed, d.notify, .free⟩
  | none =>
    let j := k - p.inputs.length
    match p.outputs[j]? with
    | some o =>
      ⟨.dout, homeOf stn j, o.initial.toNat, none, .pending, 0, 0, true, old.changed, o.notify,
        outputTag stn p j⟩
    | none => old

/-- The point of an unmapped window (R62, R66): its value is 0, an output's too. R98 speaks of the value that a
discarded write gave it, which is the old value in the unmapping's change-set entry (R77; log entry 44). -/
def unmapPoint (p : Point) : Point := { Point.unmapped with changed := p.changed }

def mapProfileWindow (stn : Stn) (p : Profile) (points : List Point) : List Point :=
  mapWindow (mappedPoint stn p) p.base (windowSize p) points

def unmapProfileWindow (p : Profile) (points : List Point) : List Point :=
  mapWindow (fun _ q => unmapPoint q) p.base (windowSize p) points

/-- R65: every point of the window becomes STALE. -/
def staleProfileWindow (p : Profile) (points : List Point) : List Point :=
  mapWindow (fun _ q => { q with quality := .stale }) p.base (windowSize p) points

/-! ### Samples (R67 to R69) -/

/-- A DIN sample (R68). -/
def takeDin (qual : Nat) (raw : Word) (p : Point) : Point :=
  let p := { p with raw := some raw }
  if raw.toNat ≤ 1 then
    let v : Int := raw.toNat
    let p := { p with age := 0 }
    match p.quality with
    | .waiting | .stale => { p with value := v, counter := 0, quality := .good }
    | .good =>
      if p.value = v then { p with counter := 0 }
      else if qual ≤ p.counter + 1 then { p with value := v, counter := 0 }
      else { p with counter := p.counter + 1 }
    | _ => p
  else p

def satInt16 (i : Int) : Int := max (-32768) (min 32767 i)

/-- The engineering value of an AIN sample (R69); the division rounds toward minus infinity. -/
def scaleAin (offset : Nat) (gain : Int) (raw : Nat) : Int :=
  satInt16 (((raw : Int) - offset) * gain / 1024)

/-- An AIN sample (R69). -/
def takeAin (offset : Nat) (gain : Int) (raw : Word) (p : Point) : Point :=
  let p := { p with raw := some raw, age := 0, counter := 0 }
  if raw.toNat ≤ 4095 then { p with value := scaleAin offset gain raw.toNat, quality := .good }
  else { p with quality := .fault }

def takeSample (d : InputDesc) (raw : Word) (p : Point) : Point :=
  match d.kind with
  | .din qual => takeDin qual raw p
  | .ain offset gain => takeAin offset gain raw p

/-- An output point at its station's good answer (R67, R73). -/
def answeredOutput (p : Point) : Point :=
  let p := { p with age := 0 }
  if p.quality = .stale then { p with quality := if p.writeOut then .pending else .good } else p

/-- A good answer's samples and the ages of the window (R67). -/
def answeredPoint (p : Profile) (samples : List Word) (k : Nat) (q : Point) : Point :=
  match p.inputs[k]? with
  | some d =>
    match samples[k]? with
    | some raw => takeSample d raw q
    | none => q
  | none => answeredOutput q

def takeSamples (p : Profile) (samples : List Word) (points : List Point) : List Point :=
  mapWindow (answeredPoint p samples) p.base (windowSize p) points

/-! ### Ageing (R70) -/

def ageable (p : Point) : Bool :=
  match p.kind, p.quality with
  | .din, .good | .din, .fault | .ain, .good | .ain, .fault => true
  | .dout, .good | .dout, .pending => true
  | _, _ => false

/-- One cycle start against the window's limit (R70). -/
def agePoint (limit : Nat) (p : Point) : Point :=
  let p := { p with age := satSucc 255 p.age }
  if ageable p && decide (limit < p.age) then { p with quality := .stale } else p

def ageWindow (p : Profile) (limit : Nat) (points : List Point) : List Point :=
  mapWindow (fun _ q => agePoint limit q) p.base (windowSize p) points

/-! ### Output reports (R73) -/

def writtenPoint (v : Word) (p : Point) : Point :=
  { p with value := v.toNat, writeOut := true, quality := if p.quality = .good then .pending else p.quality }

def settledPoint (p : Point) : Point :=
  { p with writeOut := false, quality := if p.quality = .pending then .good else p.quality }

/-- A *written* report for local output `j` of a station: only a mapped window has the point. -/
def reportWritten (k : Stn) (j : Nat) (v : Word) (s : State) : State :=
  match profileOf s k with
  | some p => commitQuiet (setPoint (outputPoint p j) (writtenPoint v) s.points) s
  | none => s

/-- The settled reports of one acknowledgement, together as one change set (R91). -/
def reportSettled (k : Stn) (outs : List Nat) (s : State) : State :=
  match profileOf s k with
  | some p =>
    commitQuiet (outs.foldl (fun pts j => setPoint (outputPoint p j) settledPoint pts) s.points) s
  | none => s

/-- The written reports of a resync, for every output, together as one change set (R93). -/
def reportResync (k : Stn) (values : List Word) (s : State) : State :=
  match profileOf s k with
  | some p =>
    commitQuiet (mapWindow (fun j q => writtenPoint (values.getD j 0) q)
      (p.base + p.inputs.length) p.outputs.length s.points) s
  | none => s

/-- The value of a hub-driven local output: point 8 or 9, or a lamp line's mode (R76). -/
def setLocalOutput (i : Nat) (v : Int) (s : State) : State :=
  commitQuiet (setPoint i (fun p => { p with value := v }) s.points) s

/-- The count of changed flags set across the image (R79). -/
def changedCount (points : List Point) : Nat := (points.filter (·.changed)).length

end Sys2Proof.Machine
end

