-- ==== Sys2Proof/Machine/Outputs.lean ====
section
/-! DEFINITION. The output writer (chapter 5): pending lists, fences, batches, resync and release writes. -/

namespace Sys2Proof.Machine

open Sys2Proof

/-! ### Room and combining (R86, R87) -/

/-- Ordinary entries may fill 14 places, release writes 16 (R86). -/
def ordinaryRoom : Nat := 14
def releaseRoom : Nat := 16

/-- The newest write to output `j`, sought from the end of the list back to the last FENCE, takes the new
value in place; `none` where there is none (R87). The list is given newest entry first. -/
def combineRev (j : Nat) (v : Word) : List Entry → Option (List Entry)
  | [] => none
  | .fence :: _ => none
  | .write i w :: rest =>
    if i = j then some (.write j v :: rest) else (combineRev j v rest).map (.write i w :: ·)

def combine? (j : Nat) (v : Word) (list : List Entry) : Option (List Entry) :=
  (combineRev j v list.reverse).map List.reverse

def combines (j : Nat) (list : List Entry) : Bool := (combine? j 0 list).isSome

/-- A write combined or appended (R87). -/
def putWrite (j : Nat) (v : Word) (list : List Entry) : List Entry :=
  match combine? j v list with
  | some l => l
  | none => list ++ [.write j v]

/-- Whether a FENCE is appended (R88): not to an empty list without a batch in flight, nor behind a FENCE. -/
def fenceNeeded (o : OutState) : Bool :=
  !(o.list.isEmpty && o.inFlight.isNone) && !(o.list.getLast? == some .fence)

def putEntry (e : Entry) (o : OutState) : OutState :=
  match e with
  | .write j v => { o with list := putWrite j v o.list, intended := o.intended.set j v }
  | .fence => if fenceNeeded o then { o with list := o.list ++ [.fence] } else o

/-- A write enters the list: the intended value follows it and the point image has its *written* report
(R85, R87). -/
def enterWrite (k : Stn) (j : Nat) (v : Word) (s : State) : State :=
  reportWritten k j v (updOut k (putEntry (.write j v)) s)

def outOf (s : State) (k : Stn) : OutState := s.outputs.get k

/-- Whether an ordinary write to output `j` finds room (R86). -/
def roomForWrite (j : Nat) (o : OutState) : Bool :=
  combines j o.list || decide (o.list.length < ordinaryRoom)

/-- The outcome code of a write: APPENDED 0, COMBINED 1 (R212). -/
def writeOutcome (j : Nat) (o : OutState) : Byte := if combines j o.list then 1 else 0

/-! ### Batches (R89, R90) -/

/-- The number that follows last assigned, passing over last echo (R90). -/
def nextNumber (o : OutState) : BitVec 4 :=
  let n := o.lastAssigned + 1
  if n = o.lastEcho then n + 1 else n

/-- The writes at the head of the list, at most `n`, stopping before a FENCE, and what is left. -/
def takeWrites : Nat → List Entry → List (Nat × Word) × List Entry
  | n + 1, .write j v :: rest =>
    let (ws, left) := takeWrites n rest
    ((j, v) :: ws, left)
  | _, list => ([], list)

def dropHeadFence : List Entry → List Entry
  | .fence :: rest => rest
  | list => list

def batchLimit : Nat := 8

/-- Batch formation at the station's slot (R89). -/
def formBatch (o : OutState) : OutState :=
  match o.inFlight with
  | some _ => o
  | none =>
    let (ws, left) := takeWrites batchLimit (dropHeadFence o.list)
    match ws with
    | [] => { o with list := left }
    | _ => { o with list := left, inFlight := some ⟨nextNumber o, ws⟩, lastAssigned := nextNumber o }

/-- The SCAN payload (R7): the batch in flight, or write count 0 with the last acknowledged number. -/
def scanPayload (o : OutState) : List Byte :=
  match o.inFlight with
  | some b =>
    [b.number.zeroExtend 8, byteOf b.writes.length]
      ++ b.writes.flatMap (fun w => byteOf w.1 :: be16 w.2.toNat)
  | none => [o.lastAck.zeroExtend 8, 0]

/-! ### Acknowledgement (R91, R92) -/

/-- The echo of a good answer: the batch acknowledged, if the numbers agree. -/
def ackOut (echo : BitVec 4) (o : OutState) : OutState × Option Batch :=
  let o := { o with lastEcho := echo }
  match o.inFlight with
  | some b => if b.number = echo then ({ o with inFlight := none, lastAck := b.number }, some b) else (o, none)
  | none => (o, none)

def hasWrite (j : Nat) (list : List Entry) : Bool :=
  list.any (fun e => match e with
    | .write i _ => i == j
    | .fence => false)

/-- The outputs of an acknowledged batch that no later write of the list carries (R91). -/
def settledOutputs (b : Batch) (list : List Entry) : List Nat :=
  (b.writes.map (·.1)).filter (fun j => !hasWrite j list)

/-! ### Resync (R93) -/

def indexed {α : Type} (n : Nat) : List α → List (Nat × α)
  | [] => []
  | x :: xs => (n, x) :: indexed (n + 1) xs

/-- One write per output, in ascending order: the first 8 as a new batch, the rest as the list. -/
def resyncOut (o : OutState) : OutState :=
  let ws := indexed 0 o.intended
  match ws with
  | [] => { o with list := [], inFlight := none }
  | _ =>
    { o with
      list := (ws.drop batchLimit).map (fun w => .write w.1 w.2)
      inFlight := some ⟨nextNumber o, ws.take batchLimit⟩
      lastAssigned := nextNumber o }

def resync (k : Stn) (s : State) : State :=
  reportResync k (outOf s k).intended (updOut k resyncOut s)

/-- Admission under a profile (R85, R93): numbering at 0, intended values at the initial values. -/
def admitOut (p : Profile) : OutState :=
  { OutState.reset with intended := p.outputs.map (fun o => BitVec.ofNat 16 o.initial.toNat) }

/-- Admission in COMMISSION mode (R97): every intended value 0, an empty list and no resync. -/
def admitOutCommission (outputs : Nat) : OutState :=
  { OutState.reset with intended := List.replicate outputs 0 }

/-- A departure from the scanned states (R94); on the way to ABSENT the intended values go too. -/
def departOut (toAbsent : Bool) (o : OutState) : OutState :=
  { o with list := [], inFlight := none, intended := if toAbsent then [] else o.intended }

/-! ### Release writes (R155) -/

/-- The write of 0 to a drive output at the end of an operation, by the station's state (R86, R94, R155). A REFUSED
station has no window either, so nothing is written to it, as to an ABSENT one. -/
def releaseWrite (k : Stn) (j : Nat) (s : State) : State :=
  match stateOf s k with
  | .joining | .online | .degraded =>
    let o := outOf s k
    if combines j o.list || decide (o.list.length < releaseRoom) then enterWrite k j 0 s else s
  | .holdoff | .fault =>
    let s' := updOut k (fun o => { o with intended := o.intended.set j 0 }) s
    match profileOf s k with
    | some p => setLocalOutput (outputPoint p j) 0 s'
    | none => s'
  | .absent | .refused => s

/-- The start writes of an operation, taken as one unit (R95, R144). -/
def enterEntries (k : Stn) (entries : List Entry) (s : State) : State :=
  entries.foldl (fun s e => match e with
    | .write j v => enterWrite k j v s
    | .fence => updOut k (putEntry .fence) s) s

end Sys2Proof.Machine
end

