-- ==== Sys2Proof/Machine/Cab.lean ====
section
/-! DEFINITION. Lamps and the alert (R100, R101, R168 to R177): the lamp rule, the mirror, the cab lamp
writes, raising and acknowledging the alert. -/

namespace Sys2Proof.Machine

open Sys2Proof

/-! ### The lamp rule (R100, R101, R168) -/

def isFlashing : LampMode → Bool
  | .flashSlow | .flashFast => true
  | _ => false

/-- Half-periods in milliseconds (R100). -/
def halfPeriod : LampMode → Nat
  | .flashFast => 125
  | _ => 500

/-- A mode takes effect on a lamp that is not flashing (R100). -/
def lampStart (m : LampMode) (now : Nat) (l : LampRec) : LampRec :=
  match m with
  | .off => { l with mode := .off, held := none, level := false, timer := none }
  | .on => { l with mode := .on, held := none, level := true, timer := none }
  | m => { l with mode := m, held := none, level := true, timer := some (now + halfPeriod m) }

/-- A mode written or offered to a lamp: at once in OFF or ON, held while flashing (R100, R168). -/
def lampOffer (m : LampMode) (now : Nat) (l : LampRec) : LampRec :=
  if isFlashing l.mode then { l with held := some m } else lampStart m now l

/-- A half-period ends (R101). -/
def lampExpire (now : Nat) (l : LampRec) : LampRec :=
  match l.held with
  | none => { l with level := !l.level, timer := some (now + halfPeriod l.mode) }
  | some .off => { l with mode := .off, held := none, level := false, timer := none }
  | some .on => { l with mode := .on, held := none, level := true, timer := none }
  | some m => { l with mode := m, held := none, level := !l.level, timer := some (now + halfPeriod m) }

/-- The held mode when there is one, and the mode in effect otherwise (R170). -/
def latestMode (l : LampRec) : LampMode := l.held.getD l.mode

/-! ### Cab lamp writes (R171) -/

def cabLamp (s : State) (k : Nat) : LampRec := s.cab.lamps.getD k LampRec.reset

def levelWord (b : Bool) : Word := BitVec.ofNat 16 b.toNat

/-- An owned output is outstanding (R171): the cab station is scanned and the intended value differs from the
lamp's level. COMMISSION mode has no owned outputs. -/
def cabOutstanding (s : State) (k : Nat) : Bool :=
  s.hub.mode != .commission && isScanned s.cab.station
    && (outOf s .c1).intended.getD k 0 != levelWord (cabLamp s k).level

/-- The cab service's write of one outstanding output: taken, or refused for want of room (R95, R171). -/
def offerCabWrite (s : State) (k : Nat) : State :=
  if cabOutstanding s k && isScanned (stateOf s .c1) && roomForWrite k (outOf s .c1) then
    enterWrite .c1 k (levelWord (cabLamp s k).level) s
  else s

/-- The owned outputs, ascending (R167). -/
def ownedOutputs : List Nat := [0, 1, 2, 3, 4, 5, 6, 7, 8, 9, 10, 11]

/-- A write is offered for each outstanding output, in ascending order (R171). -/
def offerCabWrites (s : State) : State := ownedOutputs.foldl offerCabWrite s

/-- A cab lamp's new record; a change of level offers the outstanding writes (R171). -/
def setCabLamp (k : Nat) (l : LampRec) (s : State) : State :=
  let before := (cabLamp s k).level
  let s := updCab (fun c => { c with lamps := c.lamps.set k l }) s
  if l.level = before then s else offerCabWrites s

/-! ### The mirror (R169, R170) -/

def onIf (b : Bool) : LampMode := if b then .on else .off

/-- The wanted mode of owned output `k` from the selected group's copy and the alert (R169). -/
def wantedMode (c : GroupCopy) (a : AlertState) (k : Nat) : LampMode :=
  match k with
  | 0 => onIf (c.lock = .allLocked)
  | 1 => onIf (c.lock = .allUnlocked)
  | 2 =>
    match c.landed with
    | .allLanded => .on
    | .partly => .flashSlow
    | _ => .off
  | 3 => onIf c.permit
  | 4 =>
    if c.owner = .cab then .on
    else if c.cabMark then .flashFast
    else if c.owner = .remote then .flashSlow
    else .off
  | 5 => onIf c.failure
  | 6 =>
    match a with
    | .sounding => .flashFast
    | .resting => .flashSlow
    | .quiet => .off
  | 7 => onIf (a = .sounding)
  | 8 => onIf (c.size = .at20)
  | 9 => onIf (c.size = .at40)
  | 10 => onIf (c.size = .at45)
  | 11 => onIf c.trip
  | _ => .off

/-- One output of the mirror: offered where the wanted mode differs from the latest (R170). -/
def mirrorOne (s : State) (k : Nat) : State :=
  let m := wantedMode (s.cab.copies.get s.cab.selected) s.cab.alert.state k
  let l := cabLamp s k
  if m = latestMode l then s else setCabLamp k (lampOffer m s.now l) s

/-- The wanted modes computed again, outputs offered in ascending order (R170). -/
def mirror (s : State) : State := ownedOutputs.foldl mirrorOne s

/-- A hand-off to the cab service about a group: its copy is replaced, and the mirror computed again when the
group is the selected one (R161, R170). -/
def handCopy (g : Group) (f : GroupCopy → GroupCopy) (s : State) : State :=
  let s := updCopy g f s
  if s.cab.selected = g then mirror s else s

/-! ### The alert (R173 to R177) -/

def addReason (r : AlertReason) (x : AlertReasons) : AlertReasons :=
  match r with
  | .opTimeout => { x with opTimeout := true }
  | .opAborted => { x with opAborted := true }
  | .loadInsecure => { x with loadInsecure := true }
  | .stationFault => { x with stationFault := true }
  | .linkLostLoaded => { x with linkLostLoaded := true }

def updAlert (f : Alert → Alert) (s : State) : State :=
  updCab (fun c => { c with alert := f c.alert }) s

def alertNotice (s : State) : State :=
  let a := s.cab.alert
  notice .alert [alertStateCode a.state, alertReasonsByte a.reasons, byteOf a.count] s

/-- SOUNDING with a fresh sound timer. -/
def startSound (s : State) : State :=
  updAlert (fun a => { a with
    state := .sounding, soundTimer := some (s.now + s.store.working.soundMs), restTimer := none }) s

/-- A raise hands the alert one reason (R174). The ALERT notice stands ahead of the POINT notices of the lamp writes that
the mirror then makes: no rule orders them (log entry 49). -/
def raiseAlert (r : AlertReason) (s : State) : State :=
  let before := s.cab.alert.state
  let s := updAlert (fun a => { a with reasons := addReason r a.reasons }) s
  match before with
  | .quiet => mirror (alertNotice (startSound s))
  | .resting => mirror (startSound s)
  | .sounding => s

/-- An acknowledgement (R176), its ALERT notice ahead of the mirror's lamp writes (log entry 49). -/
def ackAlert (s : State) : State :=
  mirror (alertNotice (updAlert (fun _ => ⟨.quiet, .empty, 0, none, none⟩) s))

end Sys2Proof.Machine
end

