-- ==== Sys2Proof/Machine/Flags.lean ====
section
/-! DEFINITION. The states an evaluation computes from the points (R106 to R116): corners, lock, landing,
size, slack ready, the trip condition and the permit. -/

namespace Sys2Proof.Machine

open Sys2Proof

def isGood (p : Point) : Bool := p.quality == .good

/-- A corner's state from its locked and unlocked points (R108). -/
def cornerState (locked unlocked : Point) : CornerState :=
  if isGood locked && isGood unlocked then
    match decide (locked.value = 1), decide (unlocked.value = 1) with
    | true, false => .locked
    | false, true => .unlocked
    | false, false => .moving
    | true, true => .conflict
  else .unknown

/-- The lock state from the corners' states (R109). -/
def lockState (cs : List CornerState) : LockState :=
  if cs.any (· == .unknown) then .unknown
  else if cs.any (· == .conflict) then .disagree
  else if cs.all (· == .locked) then .allLocked
  else if cs.all (· == .unlocked) then .allUnlocked
  else .transit

/-- The landed state from the landed points (R110); a point shared by corners counts the same once or
many times. -/
def landedState (ps : List Point) : LandedState :=
  if ps.any (fun p => !isGood p) then .unknown
  else if ps.all (fun p => p.value == 1) then .allLanded
  else if ps.all (fun p => p.value == 0) then .noneLanded
  else .partly

/-- The three nominal lengths in millimetres (R111). -/
def nominal20 : Int := 6058
def nominal40 : Int := 12192
def nominal45 : Int := 13716

def inBand (v nominal : Int) (tolerance : Nat) : Bool :=
  decide (nominal - tolerance ≤ v) && decide (v ≤ nominal + tolerance)

/-- The size state of a fitted telescope (R111). -/
def sizeOf (p : Point) (tolerance : Nat) : SizeState :=
  if isGood p then
    if inBand p.value nominal20 tolerance then .at20
    else if inBand p.value nominal40 tolerance then .at40
    else if inBand p.value nominal45 tolerance then .at45
    else .between
  else .unknown

def evalCorner (s : State) (c : Corner) : Corner :=
  { c with state := cornerState (pointAt s c.locked) (pointAt s c.unlocked) }

def evalSize (s : State) (g : Group) : SizeState :=
  match (s.groups.get g).position, (groupPartOf s g).bind (·.size) with
  | some i, some z => sizeOf (pointAt s i) z.toleranceMm
  | _, _ => .notFitted

/-- Slack ready (R106). -/
def evalSlack (s : State) (g : Group) : Bool :=
  match groupPartOf s g with
  | some gp => !gp.requireSlack || (pointAt s 1).value == 1
  | none => true

/-- The condition that sets the trip (R112). -/
def tripCondition (oldTrip : Bool) (previous new : LockState) (landed : LandedState) : Bool :=
  !oldTrip && previous == .allLocked
    && (new == .transit || new == .allUnlocked || new == .disagree)
    && (landed == .noneLanded || landed == .partly)

/-- Whether the group's station is ONLINE or DEGRADED (R116, R141). -/
def groupOnline (s : State) (g : Group) : Bool :=
  match (s.groups.get g).station with
  | some k => isOnline (stateOf s k)
  | none => false

/-- The permit (R116) from the states an evaluation has computed. -/
def permitOf (s : State) (g : Group) (lock : LockState) (landed : LandedState) (trip : Bool) : Bool :=
  s.hub.mode != .commission && (s.groups.get g).bound && groupOnline s g
    && (lock == .allLocked || lock == .allUnlocked) && landed != .unknown && !trip
    && (s.ops.get g).isNone

/-- The record an evaluation computes for a bound group (R107): corners, lock, landed and size states and
slack ready, then the trip, then the permit. -/
def evalRecord (s : State) (g : Group) : GroupRec :=
  let r := s.groups.get g
  let corners := r.corners.map (evalCorner s)
  let lock := lockState (corners.map (·.state))
  let landed := landedState (r.corners.map (fun c => pointAt s c.landed))
  let trip := r.trip || tripCondition r.trip r.lock lock landed
  { r with
    corners := corners
    lock := lock
    landed := landed
    size := evalSize s g
    slackReady := evalSlack s g
    trip := trip
    permit := permitOf s g lock landed trip }

/-- The summary fields whose change makes a GROUP notice (R119). -/
def sameSummary (x y : GroupRec) : Bool :=
  x.bound == y.bound && x.lock == y.lock && x.landed == y.landed && x.size == y.size
    && x.trip == y.trip && x.permit == y.permit

end Sys2Proof.Machine
end

