-- ==== Sys2Proof/Machine/Interlock.lean ====
section
/-! DEFINITION. The interlock's evaluation, binding and unbinding (R103, R104, R107, R117 to R119, R122). -/

namespace Sys2Proof.Machine

open Sys2Proof

/-- The GROUP notice (R119, R211). -/
def groupNotice (g : Group) (s : State) : State :=
  let r := s.groups.get g
  notice .group
    [groupCode g, bit r.bound, lockStateCode r.lock, landedStateCode r.landed, sizeStateCode r.size,
     bit r.trip, bit r.permit, bit r.slackReady, byteOf ((r.station.map addressOf).getD 0)] s

/-- The permit point of a group: 8 for A, 9 for B (R117). -/
def permitPoint : Group → Nat
  | .a => 8
  | .b => 9

/-- The permit pin and point take the record's value where they differ (R76, R117). -/
def drivePermit (g : Group) (s : State) : State :=
  let on := (s.groups.get g).permit
  if s.permitPins.get g = on then s
  else setLocalOutput (permitPoint g) on.toNat { s with permitPins := s.permitPins.set g on }

/-- The hand-off of a group's record to the cab service (R122). -/
def handGroup (g : Group) (s : State) : State :=
  let r := s.groups.get g
  handCopy g (fun c => { c with
    bound := r.bound, station := r.station, lock := r.lock, landed := r.landed, size := r.size,
    trip := r.trip, permit := r.permit }) s

/-- What follows a new record, seen against the record before the event: the permit line, the GROUP notice, the
cab service and an alert reason (R107, R117, R119, R122; log entry 9). -/
def publishGroup (before : GroupRec) (g : Group) (s : State) : State :=
  let s := drivePermit g s
  let s := if sameSummary before (s.groups.get g) then s else groupNotice g s
  handGroup g s

/-- An evaluation of a bound group, up to its hand-off to the operation engine: `before` is the record the
GROUP notice is judged against (R107). A trip it sets raises LOAD_INSECURE (R112). -/
def evaluateFrom (before : GroupRec) (g : Group) (s : State) : State :=
  if (s.groups.get g).bound then
    let old := s.groups.get g
    let new := evalRecord s g
    let s := publishGroup before g (updGroup g (fun _ => new) s)
    if new.trip && !old.trip then raiseAlert .loadInsecure s else s
  else s

/-- An evaluation against the record as it stands. -/
def evaluateRecord (g : Group) (s : State) : State := evaluateFrom (s.groups.get g) g s

/-- The corner of a group record from a profile's corner (R102, R44). -/
def bindCorner (p : Profile) (c : CornerDef) : Corner :=
  ⟨p.base + c.landed, p.base + c.locked, p.base + c.unlocked, .unknown⟩

/-- The record at the moment of binding, before its evaluation (R103). -/
def boundRecord (k : Stn) (p : Profile) (gp : GroupPart) : GroupRec :=
  { GroupRec.unbound with
    bound := true
    station := some k
    corners := gp.corners.map (bindCorner p)
    position := gp.size.map (fun z => p.base + z.position) }

/-- Binding at admission (R103): one GROUP notice, judged against the unbound record. -/
def bindGroup (k : Stn) (s : State) : State :=
  match profileOf s k with
  | some p =>
    match p.group with
    | some gp =>
      evaluateFrom (s.groups.get gp.role) gp.role (updGroup gp.role (fun _ => boundRecord k p gp) s)
    | none => s
  | none => s

/-- The interlock's part of an unbinding (R104). -/
def unbindRecord (g : Group) (s : State) : State :=
  publishGroup (s.groups.get g) g (updGroup g (fun _ => GroupRec.unbound) s)

/-- Whether a group record references a point (R78, R106). -/
def references (r : GroupRec) (i : Nat) : Bool :=
  r.corners.any (fun c => c.landed == i || c.locked == i || c.unlocked == i) || r.position == some i

/-- Whether a change set evaluates a group: it references one of the set's points, or the set holds an entry
for SLACK (R78, R106). -/
def concerns (r : GroupRec) (cs : List Change) : Bool :=
  cs.any (fun c => c.index == 1 || references r c.index)

end Sys2Proof.Machine
end

