-- ==== Sys2Proof/Machine/Operations.lean ====
section
/-! DEFINITION. The operation engine (chapter 8): start checks, start, phase, target, deadline, end and result
slots; and the full evaluation, which hands its result to it (R121). -/

namespace Sys2Proof.Machine

open Sys2Proof

/-! ### Kinds (R138) -/

def driveOutput (gp : GroupPart) : OpKind → Option Nat
  | .lock => some gp.lockOut
  | .unlock => some gp.unlockOut
  | .size20 => gp.size.map (·.out20)
  | .size40 => gp.size.map (·.out40)
  | .size45 => gp.size.map (·.out45)
  | .flipUp => gp.flip.map (·.upOut)
  | .flipDown => gp.flip.map (·.downOut)

/-- The deadline length in milliseconds; `none` where the kind's part is absent (R138, R141 check 5). -/
def deadlineLength (gp : GroupPart) : OpKind → Option Nat
  | .lock | .unlock => some gp.lockMs
  | .size20 | .size40 | .size45 => gp.size.map (·.sizeMs)
  | .flipUp | .flipDown => gp.flip.map (·.flipMs)

def isSizeKind : OpKind → Bool
  | .size20 | .size40 | .size45 => true
  | _ => false

def isFlipKind : OpKind → Bool
  | .flipUp | .flipDown => true
  | _ => false

/-- Whether a kind's target holds in a group record (R138); a FLIP kind has none. -/
def targetHolds (r : GroupRec) : OpKind → Bool
  | .lock => r.lock == .allLocked
  | .unlock => r.lock == .allUnlocked
  | .size20 => r.size == .at20
  | .size40 => r.size == .at40
  | .size45 => r.size == .at45
  | .flipUp | .flipDown => false

/-- The interlock of check 6 (R142). -/
def interlockHolds (r : GroupRec) : OpKind → Bool
  | .lock => r.trip || (r.landed == .allLanded && r.slackReady)
  | .unlock => !r.trip && r.landed == .allLanded && r.slackReady
  | .size20 | .size40 | .size45 => r.lock == .allUnlocked && r.landed == .noneLanded
  | .flipUp | .flipDown => true

def twoAscending (x y : Nat) : List Nat := if x ≤ y then [x, y] else [y, x]

/-- The start writes (R144): the opposing zeros, a FENCE, the drive write. -/
def startEntries (gp : GroupPart) (kind : OpKind) : List Entry :=
  let entries (zeros : List Nat) (drive : Nat) : List Entry :=
    zeros.map (fun j => .write j 0) ++ [.fence, .write drive 1]
  match kind with
  | .lock => entries [gp.unlockOut] gp.lockOut
  | .unlock => entries [gp.lockOut] gp.unlockOut
  | .size20 =>
    match gp.size with
    | some z => entries (twoAscending z.out40 z.out45) z.out20
    | none => []
  | .size40 =>
    match gp.size with
    | some z => entries (twoAscending z.out20 z.out45) z.out40
    | none => []
  | .size45 =>
    match gp.size with
    | some z => entries (twoAscending z.out20 z.out40) z.out45
    | none => []
  | .flipUp =>
    match gp.flip with
    | some f => entries [f.downOut] f.upOut
    | none => []
  | .flipDown =>
    match gp.flip with
    | some f => entries [f.upOut] f.downOut
    | none => []

/-! ### Results and notices (R157, R159, R160) -/

def isFailure : OpResult → Bool
  | .done _ => false
  | _ => true

/-- A slot's content after a new result is given to it (R157). -/
def slotAfter (held : Option OpResult) (new : OpResult) : OpResult :=
  match held with
  | none => new
  | some h => if isFailure h && !isFailure new then h else new

def slotFails (r : Option OpResult) : Bool := (r.map isFailure).getD false

/-- A CAB slot's content is handed to the cab service (R157). -/
def handFailure (g : Group) (s : State) : State :=
  let failing := slotFails ((s.results.get g).get .cab)
  handCopy g (fun c => { c with failure := failing }) s

/-- A result given to a slot (R157). -/
def storeResult (g : Group) (src : Source) (r : OpResult) (s : State) : State :=
  let s := setResult g src (some (slotAfter ((s.results.get g).get src) r)) s
  match src with
  | .cab => handFailure g s
  | .remote => s

/-- The OPERATION notice (R160, R211): group, source, kind or request, outcome, reason or status, phase at the
end, elapsed ms. A field that the event does not carry is sent as 0 (log entry 20). -/
def operationNotice (g : Group) (src : Source) (request outcome reason phase : Byte) (elapsed : Nat)
    (s : State) : State :=
  notice .operation ([groupCode g, sourceCode src, request, outcome, reason, phase] ++ be32 elapsed) s

/-- A refusal of a CAB request: stored as REFUSED, with its notice (R159, R160). The slot's hand-back, with the write of
LAMP_FAULT and its POINT notice, comes ahead of the OPERATION notice: R159, R160 and R165 order neither (log entry
50). -/
def cabRefused (g : Group) (req : CabRequest) (st : Status) (s : State) : State :=
  operationNotice g .cab (cabRequestCode req) 4 (statusCode st) 0 0
    (storeResult g .cab (.refused req st) s)

/-! ### The end of an operation (R154, R155) -/

/-- How an operation ends. -/
inductive Ending where
  | done
  | timedOut
  | aborted (reason : AbortReason)
  deriving DecidableEq, Repr

def endResult (r : OpRec) : Ending → OpResult
  | .done => .done r.kind
  | .timedOut => .timedOut r.kind r.phase
  | .aborted a => .aborted r.kind a

def endOutcome : Ending → Byte
  | .done => 1
  | .timedOut => 2
  | .aborted _ => 3

def endReason : Ending → Byte
  | .aborted a => abortReasonCode a
  | _ => 0

/-- The alert reason of an end (R155). -/
def endAlert : Ending → Option AlertReason
  | .timedOut => some .opTimeout
  | .aborted .link => some .opAborted
  | .aborted .lifted => some .opAborted
  | _ => none

/-- The release write of an operation: to its drive output on the station in its record (R155). -/
def releaseDrive (r : OpRec) (s : State) : State :=
  match (profileOf s r.station).bind (·.group) with
  | some gp =>
    match driveOutput gp r.kind with
    | some j => releaseWrite r.station j s
    | none => s
  | none => s

/-- The six steps of an end (R154). The evaluation of step 6 finds no operation in flight, so its hand-off
changes nothing in the engine. -/
def endOperation (g : Group) (e : Ending) (s : State) : State :=
  match s.ops.get g with
  | none => s
  | some r =>
    let s := releaseDrive r s
    let s := setOp g none s
    let s := storeResult g r.source (endResult r e) s
    let s := operationNotice g r.source (opKindCode r.kind) (endOutcome e) (endReason e) (phaseCode r.phase)
      (s.now - r.start) s
    let s := match endAlert e with
      | some a => raiseAlert a s
      | none => s
    evaluateRecord g s

/-- The engine's test of an evaluation's hand-off (R147). -/
def handToEngine (g : Group) (s : State) : State :=
  match s.ops.get g with
  | none => s
  | some r =>
    let rec' := s.groups.get g
    if r.landingRequired && rec'.landed != .allLanded then endOperation g (.aborted .lifted) s
    else if targetHolds rec' r.kind then endOperation g .done s
    else s

/-- A full evaluation: an unbound group is not evaluated (R106, R107, R121). -/
def evaluate (g : Group) (s : State) : State :=
  if (s.groups.get g).bound then handToEngine g (evaluateRecord g s) else s

/-- The deadline's end (R148). -/
def deadlineEnding (r : OpRec) : Ending :=
  if isFlipKind r.kind && r.phase == .driving then .done else .timedOut

/-- The engine's check of an acknowledged batch's writes (R146). -/
def noteBatch (k : Stn) (b : Batch) (s : State) : State :=
  groupsList.foldl (fun s g =>
    match s.ops.get g with
    | some r =>
      let drive := (profileOf s k).bind (·.group) |>.bind (driveOutput · r.kind)
      if r.station = k && r.phase == .queued && (drive.map (fun j => b.writes.contains (j, 1))).getD false then
        setOp g (some { r with phase := .driving }) s
      else s
    | none => s) s

/-! ### Starting (R140 to R145) -/

/-- The verdict of the start checks. -/
inductive StartCheck where
  | refuse (st : Status)
  | alreadyDone
  | start (k : Stn) (gp : GroupPart) (length : Nat)
  deriving DecidableEq, Repr

/-- No mode change is pending and the mode is BASIC or RUN (R127 check 2, R141 check 1). -/
def modeAllows (s : State) : Bool := s.hub.mode != .commission && s.hub.change.isNone

def ownerIs (s : State) (g : Group) (src : Source) : Bool :=
  match (s.owners.get g).owner, src with
  | .cab, .cab => true
  | .remote, .remote => true
  | _, _ => false

/-- The most entries a list may hold at a start: 11, or 10 for a SIZE kind (R141 check 7). -/
def startRoom (kind : OpKind) : Nat := if isSizeKind kind then 10 else 11

/-- The seven checks, in order, with the immediate DONE of R143 between checks 6 and 7 (R141). -/
def checkStart (g : Group) (kind : OpKind) (src : Source) (s : State) : StartCheck :=
  let r := s.groups.get g
  if !modeAllows s then .refuse .mode
  else if !(r.bound && groupOnline s g) then .refuse .notOnline
  else if !ownerIs s g src then .refuse .notOwner
  else if (s.ops.get g).isSome then .refuse .busy
  else
    match r.station, groupPartOf s g with
    | some k, some gp =>
      match deadlineLength gp kind with
      | none => .refuse .notFitted
      | some length =>
        if !interlockHolds r kind then .refuse .interlock
        else if targetHolds r kind then .alreadyDone
        else if startRoom kind < (outOf s k).list.length then .refuse .busy
        else .start k gp length
    | _, _ => .refuse .notFitted

/-- An immediate DONE (R143), its slot handed back ahead of its notice (log entry 50). -/
def immediateDone (g : Group) (kind : OpKind) (src : Source) (s : State) : State :=
  operationNotice g src (opKindCode kind) 1 0 0 0 (storeResult g src (.done kind) s)

/-- The record a start makes (R139, R145). -/
def startRecord (kind : OpKind) (src : Source) (k : Stn) (length : Nat) (trip : Bool) (now : Nat) : OpRec :=
  ⟨kind, src, now, now + length, .queued, kind == .unlock || (kind == .lock && !trip), k⟩

/-- A start (R144, R145): the start writes, the record, the reply, the OPERATION notice, the evaluation.
`reply` is the reply of a REMOTE start, made from the state after the start writes. -/
def startOperation (g : Group) (kind : OpKind) (src : Source) (k : Stn) (gp : GroupPart) (length : Nat)
    (reply : State → State) (s : State) : State :=
  let s := enterEntries k (startEntries gp kind) s
  let s := setOp g (some (startRecord kind src k length (s.groups.get g).trip s.now)) s
  let s := reply s
  let s := operationNotice g src (opKindCode kind) 0 0 0 0 s
  evaluate g s

/-- A CAB start (R140): a refusal goes to the CAB result slot. -/
def cabOperate (g : Group) (kind : OpKind) (s : State) : State :=
  match checkStart g kind .cab s with
  | .refuse st => cabRefused g (.op kind) st s
  | .alreadyDone => immediateDone g kind .cab s
  | .start k gp length => startOperation g kind .cab k gp length id s

/-! ### Stopping and taking (R156, R158) -/

/-- OP_STOP by the owner: the kind stopped, if an operation was in flight. -/
def stopOperation (g : Group) (s : State) : State × Option OpKind :=
  match s.ops.get g with
  | some r => (endOperation g (.aborted .stopped) s, some r.kind)
  | none => (s, none)

def cabStop (g : Group) (s : State) : State :=
  if ownerIs s g .cab then (stopOperation g s).1 else cabRefused g .stop .notOwner s

/-- A slot taken (R158, R166). -/
def takeResult (g : Group) (src : Source) (s : State) : State :=
  let s := setResult g src none s
  match src with
  | .cab => handFailure g s
  | .remote => s

/-! ### TRIP_CLEAR (R114) -/

/-- The result of a TRIP_CLEAR. -/
inductive TripAnswer where
  | refuse (st : Status)
  | notTripped
  | cleared
  deriving DecidableEq, Repr

/-- Checks 2 to 5 of R114, in its order. While a mode change is pending an unbound group is NO_GROUP by check 2, though
R199's table says NOT_OWNER (log entry 51). -/
def checkTripClear (g : Group) (src : Source) (s : State) : TripAnswer :=
  let r := s.groups.get g
  if !r.bound then .refuse .noGroup
  else if !ownerIs s g src then .refuse .notOwner
  else if !r.trip then .notTripped
  else if (r.lock == .allLocked || r.lock == .allUnlocked) && r.landed != .unknown then .cleared
  else .refuse .interlock

/-- The trip is cleared and an evaluation follows, whose notice carries the cleared trip (R114). -/
def clearTrip (g : Group) (s : State) : State :=
  let before := s.groups.get g
  handToEngine g (evaluateFrom before g (updGroup g (fun r => { r with trip := false }) s))

def cabTripClear (g : Group) (s : State) : State :=
  match checkTripClear g .cab s with
  | .refuse st => cabRefused g .tripClear st s
  | .notTripped => s
  | .cleared => clearTrip g s

end Sys2Proof.Machine
end

