-- ==== Sys2Proof/Machine/Ownership.lean ====
section
/-! DEFINITION. Control ownership (chapter 7): marks, claims, releases and lapses. -/

namespace Sys2Proof.Machine

open Sys2Proof

def ownerOfSource : Source → Owner
  | .cab => .cab
  | .remote => .remote

def otherSource : Source → Source
  | .cab => .remote
  | .remote => .cab

/-- A source's mark made or removed; a CAB mark is handed to the cab service (R125). -/
def setMark (g : Group) (src : Source) (m : Option Mark) (s : State) : State :=
  let s := updOwner g (fun r => { r with marks := r.marks.set src m }) s
  match src with
  | .cab => handCopy g (fun c => { c with cabMark := m.isSome }) s
  | .remote => s

def removeMark (g : Group) (src : Source) (s : State) : State :=
  if ((s.owners.get g).marks.get src).isSome then setMark g src none s else s

/-- The CLAIM notice (R137, R211). -/
def claimNotice (g : Group) (old new : Owner) (generation : Word) (cause : ClaimCause) (s : State) : State :=
  notice .claim ([groupCode g, ownerCode old, ownerCode new] ++ be16 generation.toNat ++ [claimCauseCode cause]) s

/-- An owner change (R124): the owner, the generation and both marks; the CLAIM notice; the cab service's copy;
then the abort of an operation in flight. -/
def ownerChange (g : Group) (new : Owner) (cause : ClaimCause) (reason : AbortReason) (s : State) : State :=
  let old := (s.owners.get g).owner
  let s := updOwner g (fun r => ⟨new, r.generation + 1, ⟨none, none⟩⟩) s
  let s := claimNotice g old new (s.owners.get g).generation cause s
  let s := handCopy g (fun c => { c with owner := new, cabMark := false }) s
  endOperation g (.aborted reason) s

/-! ### Claim requests (R127 to R131) -/

/-- Checks 2 to 4 of R127. -/
def checkClaim (g : Group) (src : Source) (s : State) : Option Status :=
  if !modeAllows s then some .mode
  else if src == .cab && !isOnline (stateOf s .c1) then some .notOnline
  else if !(s.groups.get g).bound then some .noGroup
  else none

/-- A CLAIM_READ that passes (R125, R128). -/
def claimReadTake (g : Group) (src : Source) (s : State) : State :=
  setMark g src (some ⟨(s.owners.get g).generation, s.now + s.store.working.claimWindowMs⟩) s

/-- Whether a source holds a fresh mark (R129). -/
def markFresh (g : Group) (src : Source) (s : State) : Bool :=
  match (s.owners.get g).marks.get src with
  | some m => m.generation == (s.owners.get g).generation
  | none => false

/-- A CLAIM_SET that passes R127 (R129). The second part says whether it passed. A mark that a refused CAB set removes
is handed back before the refusal is stored (log entry 50). -/
def claimSetTake (g : Group) (src : Source) (s : State) : State × Bool :=
  if markFresh g src s then
    if ownerIs s g src then (removeMark g src s, true)
    else (ownerChange g (ownerOfSource src) .set .owner s, true)
  else (removeMark g src s, false)

/-- A CLAIM_RELEASE by the owner (R131). -/
def claimReleaseTake (g : Group) (s : State) : State := ownerChange g .none .release .owner s

def cabClaimRead (g : Group) (s : State) : State :=
  match checkClaim g .cab s with
  | some st => cabRefused g .claimRead st s
  | none => claimReadTake g .cab s

def cabClaimSet (g : Group) (s : State) : State :=
  match checkClaim g .cab s with
  | some st => cabRefused g .claimSet st s
  | none =>
    let r := claimSetTake g .cab s
    if r.2 then r.1 else cabRefused g .claimSet .staleClaim r.1

def cabClaimRelease (g : Group) (s : State) : State :=
  if ownerIs s g .cab then claimReleaseTake g s else cabRefused g .claimRelease .notOwner s

/-! ### Lapses (R133 to R136) -/

/-- The loss of a source, on one group: a lapse where it owns the group, its mark removed elsewhere. -/
def loseSource (src : Source) (cause : ClaimCause) (g : Group) (s : State) : State :=
  if ownerIs s g src then ownerChange g .none cause .owner s else removeMark g src s

/-- The loss of the cab station (R133), on group A wholly, then on group B (log entry 43). -/
def cabLost (s : State) : State := loseSource .cab .cabLost .b (loseSource .cab .cabLost .a s)

/-- The host-silence event at the ownership block (R134), on group A wholly, then on group B (log entry 43). -/
def hostSilent (s : State) : State := loseSource .remote .hostSilent .b (loseSource .remote .hostSilent .a s)

def clearMarks (g : Group) (s : State) : State := removeMark g .remote (removeMark g .cab s)

/-- An unbinding at the ownership block (R135): an operation still in flight ends with LINK (R153). -/
def unboundLapse (g : Group) (s : State) : State :=
  if (s.owners.get g).owner = .none then clearMarks g s else ownerChange g .none .unbound .link s

/-- The start of a mode change, on one group (R136): its operation has already ended with MODE. -/
def modeLapse (g : Group) (s : State) : State :=
  if (s.owners.get g).owner = .none then clearMarks g s else ownerChange g .none .mode .mode s

/-- A group is unbound (R104): the record, then the ownership block. -/
def unbindGroup (g : Group) (s : State) : State := unboundLapse g (unbindRecord g s)

end Sys2Proof.Machine
end

