-- ==== Sys2Proof/Machine/Buttons.lean ====
section
/-! DEFINITION. Change sets handed on (R78) and the cab's buttons (R162 to R166). -/

namespace Sys2Proof.Machine

open Sys2Proof

/-- The request of cab button `k` on a group (R162, R165, R166). -/
def pressButton (k : Nat) (g : Group) (s : State) : State :=
  match k with
  | 0 => cabOperate g .lock s
  | 1 => cabOperate g .unlock s
  | 2 => cabOperate g .size20 s
  | 3 => cabOperate g .size40 s
  | 4 => cabOperate g .size45 s
  | 5 => cabOperate g .flipUp s
  | 6 => cabOperate g .flipDown s
  | 7 => cabStop g s
  | 8 => if (s.cab.copies.get g).cabMark then cabClaimSet g s else cabClaimRead g s
  | 9 => cabClaimRelease g s
  | 10 => takeResult g .cab (ackAlert s)
  | 11 => cabTripClear g s
  | _ => s

/-- A button edge (R164). -/
def isEdge (c : Change) : Bool :=
  decide (16 ≤ c.index) && decide (c.index ≤ 27) && c.oldQuality == .good && c.newQuality == .good
    && c.oldValue == 0 && c.newValue == 1

def pressEdge (s : State) (c : Change) : State := pressButton (c.index - 16) s.cab.selected s

/-- GROUP_SEL (R163): an entry for point 28 whose new quality is GOOD. -/
def selectGroup (cs : List Change) (s : State) : State :=
  match cs.find? (fun c => c.index == 28 && c.newQuality == .good) with
  | some c =>
    let g : Group := if c.newValue = 0 then .a else .b
    if s.cab.selected = g then s else mirror (updCab (fun c => { c with selected := g }) s)
  | none => s

/-- The cab service reads a change set: the selection first, then the edges in ascending order (R163, R164). -/
def cabReads (cs : List Change) (s : State) : State :=
  (cs.filter isEdge).foldl pressEdge (selectGroup cs s)

/-- The interlock's part of a change set (R78, R106). -/
def interlockReads (cs : List Change) (s : State) : State :=
  groupsList.foldl (fun s g => if concerns (s.groups.get g) cs then evaluate g s else s) s

/-- A change set of input points at its receivers: the host port, then the interlock, then the cab service
(R78; log entry 8). -/
def deliverPoints (new : List Point) (s : State) : State :=
  let r := commitPoints new s
  cabReads r.2 (interlockReads r.2 r.1)

end Sys2Proof.Machine
end

