-- ==== Sys2Proof/Machine/Stations.lean ====
section
/-! DEFINITION. Station records (chapter 2): slot costs and schedules, state changes and their reports,
departures, admission, the plug fast path, restart and the start of a cycle. -/

namespace Sys2Proof.Machine

open Sys2Proof

/-! ### Costs and schedules (R17, R19, R23) -/

/-- The cost of a slot in µs, the division rounded up (R19). -/
def slotCost (ls : LineSettings) (request answer : Nat) : Nat :=
  (10 * ls.divisor * (18 + request + answer) + 47) / 48 + ls.respUs

def stationSlotCost (ls : LineSettings) (inputs : Nat) : Nat := slotCost ls 26 (2 + 2 * inputs)
def probeSlotCost (ls : LineSettings) : Nat := slotCost ls 0 8
def paramSlotCost (ls : LineSettings) : Nat := slotCost ls 35 36

/-- The cost of a schedule (R19): its stations, one probe slot and one parameter slot. -/
def scheduleCost (s : State) (ls : LineSettings) (sched : List Stn) : Nat :=
  (sched.map (fun k => stationSlotCost ls (inputCount s k))).sum + probeSlotCost ls + paramSlotCost ls

/-- The settings the coming cycle will use (R23). -/
def comingSettings (e : LineEngine) : LineSettings := e.awaiting.getD e.inForce

/-- A station put into a schedule, in ascending address order (R23). -/
def insertStation (k : Stn) (sched : List Stn) : List Stn :=
  (lineStations (lineOf k)).filter (fun x => x == k || sched.contains x)

/-- The layout of a cycle (R17): station slots in order, the probe slot, the parameter slot, each starting
where the one before it ended. -/
def layoutFrom (s : State) (ls : LineSettings) : Nat → List Stn → List PlannedSlot
  | at_, [] => [⟨.probe, at_, probeSlotCost ls⟩, ⟨.param, at_ + probeSlotCost ls, paramSlotCost ls⟩]
  | at_, k :: ks =>
    let c := stationSlotCost ls (inputCount s k)
    ⟨.station k, at_, c⟩ :: layoutFrom s ls (at_ + c) ks

def topAddress : Line → Nat
  | .s => 4
  | .c => 1

/-- The smallest address above the pointer, or the smallest of all (R21, R22). -/
def rotate (ptr : Nat) (ks : List Stn) : Option Stn :=
  match ks.find? (fun k => decide (ptr < addressOf k)) with
  | some k => some k
  | none => ks.head?

/-! ### Reports of a state change (R25) -/

/-- The STATION notice (R25, R211). -/
def stationNotice (k : Stn) (s : State) : State :=
  let r := s.stations.get k
  notice .station
    [lineCode (lineOf k), byteOf (addressOf k), stationStateCode r.state, lastCauseCode r.lastCause,
     refusalCode r.refusal, byteOf r.misses, byteOf r.recovery] s

/-- The cab service takes a report of the cab station: writes are offered when it enters the scanned states
(R161, R171; log entry 28). -/
def reportCabStation (new : StationState) (s : State) : State :=
  let old := s.cab.station
  let s := updCab (fun c => { c with station := new }) s
  if isScanned new && !isScanned old then offerCabWrites s else s

/-- A move among the scanned states: the notice, except between ONLINE and DEGRADED, then the reports to the
interlock and the cab service (R25, R106; log entry 53). -/
def reportScanned (k : Stn) (old : StationState) (s : State) : State :=
  let new := stateOf s k
  if new = old then s
  else
    let s := if isOnline old && isOnline new then s else stationNotice k s
    match lineOf k with
    | .s =>
      match groupAt s k with
      | some g => evaluate g s
      | none => s
    | .c => reportCabStation new s

/-! ### Departures (R34, R35, R104, R118, R133, R152) -/

/-- R118's test on a group record as it stood before the departure. -/
def loadedNotLanded (r : GroupRec) : Bool := r.lock == .allLocked && r.landed != .allLanded

/-- The operation engine and the interlock at a departure of their station (R118, R152): which of the state
report and the evaluation the engine takes first is left open. Where the operation requires landing, a free value
decides, because the result depends on it. Any other operation ends with LINK in either order, and the report is taken
first here, ahead of the evaluation and of the UNBOUND lapse: its OPERATION notice then stands ahead of their GROUP
and CLAIM notices (log entry 10). -/
def departGroup (g : Group) (s : State) : State :=
  match s.ops.get g with
  | some r =>
    if r.landingRequired then
      let s' := { s with choices := s.choices + 1 }
      if Config.evaluationFirst s.choices then endOperation g (.aborted .link) (evaluate g s')
      else evaluate g (endOperation g (.aborted .link) s')
    else evaluate g (endOperation g (.aborted .link) s)
  | none => evaluate g s

/-- The alert of a group's station that enters FAULT (R174). -/
def stationFault (k : Stn) (s : State) : State :=
  let shown (c : GroupCopy) : Bool := c.bound && c.station == some k
  if lineOf k = .s && (shown s.cab.copies.a || shown s.cab.copies.b) then raiseAlert .stationFault s else s

/-- The reply of a transfer that ends (R41): its request's code, tag and body. -/
def transferCode : TransferKind → Byte
  | .read => 34
  | .write => 35

def endTransfer (k : Stn) (st : Status) (body : List Byte) (s : State) : State :=
  match (s.stations.get k).transfer with
  | some t =>
    replyBytes (transferCode t.kind) t.tag st body (updStation k (fun r => { r with transfer := none }) s)
  | none => s

/-- The engine's own part of a departure (R20, R34, R41): the next schedule and the slot in progress. -/
def departEngine (k : Stn) (e : LineEngine) : LineEngine :=
  { e with
    next := e.next.filter (· != k)
    slot := e.slot.map (fun x => if x.stn == k && x.kind != .probe then { x with void := true } else x) }

/-- The record at a departure (R32, R34, R35). Its profile stays until the groups have been evaluated
(`dropProfile`), and its identity stays through a restart too (log entry 42). -/
def departRecord (new : StationState) (cause : LastCause) (expiry : Option Nat) (r : StationRec) :
    StationRec :=
  { r with
    state := new
    lastCause := cause
    refusal := none
    holdoffExpiry := expiry
    misses := if new = .absent then 0 else r.misses
    limitNoted := if new = .absent then false else r.limitNoted }

/-- The profile goes with the mapping of the station, as its group is unbound (R35). -/
def dropProfile (new : StationState) (r : StationRec) : StationRec :=
  { r with profile := if new = .absent then none else r.profile }

/-- The window of a departing station (R65, R66). -/
def departWindow (new : StationState) (p : Option Profile) (s : State) : State :=
  match p with
  | some p => commitQuiet ((if new = .absent then unmapProfileWindow p else staleProfileWindow p) s.points) s
  | none => s

/-- The length of HOLDOFF (R29, R32). -/
def retryLength (s : State) (k : Stn) : Nat := ((profileOf s k).map (·.retryMs)).getD 1000

/-- A record leaves its state for HOLDOFF, FAULT or ABSENT, with all that follows (R34, R35): schedule, output
writer, transfer, window, notice; then the operation engine and the interlock on the report, while the group
is bound and the profile recorded; then the profile, the unbinding with its lapse, and the cab service (log
entry 11). -/
def leave (k : Stn) (new : StationState) (cause : LastCause) (s : State) : State :=
  let old := stateOf s k
  let prof := profileOf s k
  let grp := groupAt s k
  let loaded := isOnline old && (grp.map (fun g => loadedNotLanded (s.groups.get g))).getD false
  let expiry := if new = .holdoff then some (s.now + retryLength s k) else none
  let s := updLine (lineOf k) (departEngine k) s
  let s := updOut k (departOut (new = .absent)) s
  let s := endTransfer k .linkLost [] s
  let s := updStation k (departRecord new cause expiry) s
  let s := departWindow new prof s
  let s := if new = .absent then
      { s with staleLimits := s.staleLimits.set k none, raw := s.raw.set k none }
    else s
  let s := stationNotice k s
  let s := if loaded then raiseAlert .linkLostLoaded s else s
  let s := match grp with
    | some g => departGroup g s
    | none => s
  let s := updStation k (dropProfile new) s
  let s := match grp with
    | some g => if new = .absent then unbindGroup g s else s
    | none => s
  match lineOf k with
  | .s => if new = .fault then stationFault k s else s
  | .c => reportCabStation new (if isOnline old then cabLost s else s)

/-- A record that is not ABSENT goes to ABSENT. -/
def leaveUnlessAbsent (cause : LastCause) (s : State) (k : Stn) : State :=
  if stateOf s k = .absent then s else leave k .absent cause s

/-! ### The plug fast path (R36, R37) -/

def suspend (b : Bool) (s : State) : State := updLine .s (fun e => { e with suspended := b }) s

/-- A fall of PLUG (R36): the records depart in ascending address order (log entry 43). -/
def plugFall (s : State) : State :=
  (lineStations .s).foldl (leaveUnlessAbsent .unplugged) (suspend true s)

def plugRise (s : State) : State := suspend false s

/-! ### Admission (R26 to R29, R57) -/

/-- The lookup of check 1 (R57). -/
def lookupProfile (s : State) (k : Stn) (i : Identity) : Option ProfileRef :=
  match k, s.hub.mode with
  | .c1, _ => some .builtInCab
  | .s2, .basic => some .builtInSpreader
  | _, .run => if (tableProfile s i.typeCode).isSome then some (.table i.typeCode) else none
  | _, _ => none

/-- The profiles of the other stations of a line in a mapped state (R26). -/
def mappedProfiles (s : State) (k : Stn) : List Profile :=
  (lineStations (lineOf k)).filterMap (fun x =>
    if x != k && isMapped (stateOf s x) then profileOf s x else none)

def windowsOverlap (p q : Profile) : Bool :=
  decide (0 < windowSize p) && decide (0 < windowSize q)
    && decide (p.base < q.base + windowSize q) && decide (q.base < p.base + windowSize p)

/-- Check 5 (R23, R26, R29): the next schedule with this station's slot within the coming P. -/
def budgetFits (s : State) (k : Stn) (inputs : Nat) : Bool :=
  let e := s.lines.get (lineOf k)
  let ls := comingSettings e
  decide (scheduleCost s ls (e.next.filter (· != k)) + stationSlotCost ls inputs ≤ ls.period)

/-- The five checks in order (R26). A second station of a type code in use holds the window of the first and, where the
profile has a group part, its role too: R26's order refuses it with GROUP_TAKEN, though R57 says OVERLAP, which stays
for a profile without a group part (log entry 46). -/
def admissionCheck (s : State) (k : Stn) (i : Identity) : Except RefusalReason ProfileRef :=
  match lookupProfile s k i with
  | none => .error .noProfile
  | some ref =>
    match resolveProfile s ref with
    | none => .error .noProfile
    | some p =>
      if !(i.inputs == p.inputs.length && i.outputs == p.outputs.length) then .error .countMismatch
      else if (mappedProfiles s k).any (fun q =>
          match p.group, q.group with
          | some x, some y => x.role == y.role
          | _, _ => false) then .error .groupTaken
      else if (mappedProfiles s k).any (windowsOverlap p) then .error .overlap
      else if !budgetFits s k i.inputs then .error .budget
      else .ok ref

/-- A failed check (R28): a change of state or of reason makes a notice (R25; log entry 53). -/
def refuseStation (k : Stn) (reason : RefusalReason) (s : State) : State :=
  let before := s.stations.get k
  let s := updStation k (fun r => { r with
    state := .refused, refusal := some reason, lastCause := .refused }) s
  if before.state = .refused && before.refusal = some reason then s
  else
    let s := stationNotice k s
    match lineOf k with
    | .s => s
    | .c => if before.state = .refused then s else reportCabStation .refused s

def joinRecord (ref : Option ProfileRef) (r : StationRec) : StationRec :=
  { r with
    state := .joining, refusal := none, profile := ref, misses := 0, limitNoted := false,
    lastCause := .admitted }

/-- The record goes to JOINING and into the next schedule (R27, R29). -/
def joinStation (k : Stn) (ref : Option ProfileRef) (s : State) : State :=
  updLine (lineOf k) (fun e => { e with next := insertStation k e.next })
    (updStation k (joinRecord ref) s)

/-- A pass in BASIC or RUN mode (R27, R64, R93, R103): the record and schedule, the window, the notice, the
binding, the resync, the report to the cab service (log entry 12). -/
def admitStation (k : Stn) (ref : ProfileRef) (s : State) : State :=
  let s := joinStation k (some ref) s
  match profileOf s k with
  | none => s
  | some p =>
    let limit := staleLimit p.maxAgeMs (s.lines.get (lineOf k)).inForce.period
    let s := commitQuiet (mapProfileWindow k p s.points)
      { s with staleLimits := s.staleLimits.set k (some limit) }
    let s := stationNotice k s
    let s := match lineOf k with
      | .s => bindGroup k s
      | .c => s
    let s := resync k (updOut k (fun _ => admitOut p) s)
    match lineOf k with
    | .s => s
    | .c => reportCabStation .joining s

/-- A pass in COMMISSION mode (R29, R97, R201). -/
def admitCommission (k : Stn) (i : Identity) (s : State) : State :=
  let s := joinStation k none s
  let s := updOut k (fun _ => admitOutCommission i.outputs) s
  let s := stationNotice k { s with raw := s.raw.set k (some ⟨none, false, 0⟩) }
  match lineOf k with
  | .s => s
  | .c => reportCabStation .joining s

/-- Admission on a good ROLL_ANSWER (R26, R29): the identity is stored, then the checks. -/
def admission (k : Stn) (i : Identity) (s : State) : State :=
  let s := updStation k (fun r => { r with identity := some i }) s
  match s.hub.mode with
  | .commission => if budgetFits s k i.inputs then admitCommission k i s else refuseStation k .budget s
  | _ =>
    match admissionCheck s k i with
    | .ok ref => admitStation k ref s
    | .error reason => refuseStation k reason s

/-! ### Probe candidates and transfers (R21, R22) -/

def isCandidate (s : State) (k : Stn) : Bool :=
  let st := stateOf s k
  (st == .absent || st == .refused) && !(s.lines.get (lineOf k)).suspended

def candidates (s : State) (l : Line) : List Stn := (lineStations l).filter (isCandidate s)

def withTransfer (s : State) (l : Line) : List Stn :=
  (lineStations l).filter (fun k => (s.stations.get k).transfer.isSome)

def noTransfers (s : State) : Bool := (withTransfer s .s).isEmpty && (withTransfer s .c).isEmpty

/-! ### The start of a cycle (R17, R18, R70, R71, R171, R201) -/

/-- One mapped window's ageing at a cycle start, as one change set. -/
def ageStation (s : State) (k : Stn) : State :=
  let s := { s with raw := s.raw.set k ((s.raw.get k).map (fun r => { r with age := satSucc 255 r.age })) }
  if isMapped (stateOf s k) then
    match profileOf s k with
    | some p =>
      let limit := staleLimit p.maxAgeMs (s.lines.get (lineOf k)).inForce.period
      deliverPoints (ageWindow p limit s.points) { s with staleLimits := s.staleLimits.set k (some limit) }
    | none => s
  else s

/-- The engine's own part of a cycle start: settings and schedule taken up together, the cycle laid out. -/
def takeUp (s : State) (e : LineEngine) : LineEngine :=
  let ls := comingSettings e
  { e with
    inForce := ls, awaiting := none, active := e.next, running := true,
    plan := layoutFrom s ls 0 e.next, slot := none }

/-- A line's new cycle begins (R18); its windows age in ascending station address (log entry 43). On the C-line the cab
service then offers its writes: R70 and R171 give ageing and offers no order (log entry 47). -/
def startCycle (l : Line) (s : State) : State :=
  let s := updLine l (takeUp s) s
  let s := (lineStations l).foldl ageStation s
  match l with
  | .s => s
  | .c => offerCabWrites s

end Sys2Proof.Machine
end

