-- ==== Sys2Proof/Machine/Teardown.lean ====
section
/-! DEFINITION. The teardown of a mode change (R42, R200), and when it is taken. -/

namespace Sys2Proof.Machine

open Sys2Proof

/-- The engine's own part: the slot in progress is abandoned, both schedules emptied, both pointers as after
reset (R42, R24). -/
def tearEngine (l : Line) (e : LineEngine) : LineEngine :=
  { e with active := [], next := [], probePtr := topAddress l, paramPtr := topAddress l, plan := [], slot := none }

/-- A record goes to ABSENT with last cause MODE; a record already ABSENT takes the cause (R42; log entry 15). -/
def tearStation (s : State) (k : Stn) : State :=
  updStation k (fun r => { r with lastCause := .mode }) (leaveUnlessAbsent .mode s k)

/-- One line taken down (R42, R200 part 1), its records in ascending address order (log entry 43). -/
def tearLine (l : Line) (s : State) : State :=
  (lineStations l).foldl tearStation (updLine l (tearEngine l) s)

/-- The teardown (R200): both lines, the S-line first (log entry 43), the raw store, the mode, the new cycles,
the reply, the HUB notice. -/
def teardown (c : ModeChange) (s : State) : State :=
  let s := tearLine .c (tearLine .s s)
  let s := { s with raw := .all none, hub := ⟨c.target, none⟩ }
  let s := startCycle .c (startCycle .s s)
  hubModeChanged c.target (replyBytes 4 c.tag .ok [modeCode c.target] s)

/-- The teardown is taken where a change is pending and no transfer is (R198, R199; log entry 16). -/
def settleChange (s : State) : State :=
  match s.hub.change with
  | some c => if noTransfers s then teardown c s else s
  | none => s

end Sys2Proof.Machine
end

