-- ==== Sys2Proof/Machine/Verdict.lean ====
section
/-! DEFINITION. Judging an answer (R8 to R10, R14 to R16, R208): the answer window, the bytes that count, and
the verdict of a slot. -/

namespace Sys2Proof.Machine

open Sys2Proof

/-! ### The times of a slot, in REFCLK periods from its start (R1, R2, R4, R11, R14) -/

def byteTime (x : Slot) : Nat := 10 * x.settings.divisor

/-- The driver-enable pin rises 3 byte times after the slot's start (R1, R4). -/
def driverRises (x : Slot) : Nat := 3 * byteTime x

/-- It falls at the end of the request's last stop bit, and the receiver opens (R1; `receiverOpen`). -/
def driverFalls (x : Slot) : Nat := driverRises x + x.request.length * byteTime x

/-- Whether SDE or CDE is high at a moment of the slot (R1). -/
def driverEnabled (x : Slot) (t : Nat) : Bool := decide (driverRises x ≤ t) && decide (t < driverFalls x)

/-- The answer window opens 3 byte times after the request (R11). -/
def windowOpens (x : Slot) : Nat := driverFalls x + 3 * byteTime x

/-- It closes resp_us later (R11). -/
def windowCloses (x : Slot) : Nat := windowOpens x + 48 * x.settings.respUs

/-- The slot's budgeted end (R14, R17). -/
def slotEnds (x : Slot) : Nat := 48 * x.length

/-! ### The answer's bytes (R14) -/

/-- A byte that begins the answer: the sync value, its start bit inside the window. -/
def beginsAnswer (x : Slot) (b : RxByte) : Bool :=
  b.value == syncByte && decide (windowOpens x ≤ b.start) && decide (b.start ≤ windowCloses x)

/-- A byte that has arrived whole by the slot's end. -/
def arrives (x : Slot) (b : RxByte) : Bool := decide (b.start + byteTime x ≤ slotEnds x)

/-- What the engine reads from a sound answer: the address byte, the kind byte and the payload. -/
structure Answer where
  addressByte : Byte
  kindByte : Byte
  payload : List Byte
  deriving DecidableEq, Repr

/-- Causes 1 and 2 of R15 on the bytes the receiver saw. -/
def receive (x : Slot) (rx : List RxByte) : Except MissReason Answer :=
  match rx.dropWhile (fun b => !beginsAnswer x b) with
  | [] => .error .timeout
  | answer =>
    match answer.takeWhile (arrives x) with
    | sync :: addr :: kind :: len :: rest =>
      let n := len.value.toNat
      if maxFieldPayload < n then .error .check
      else if rest.length < n + 2 then .error .check
      else
        let body := addr :: kind :: len :: rest.take n
        let check := (rest.drop n).take 2
        if (sync :: body ++ check).any (fun b => !b.stopOk) then .error .check
        else if checkBytes (body.map (·.value)) != check.map (·.value) then .error .check
        else .ok ⟨addr.value, kind.value, (rest.take n).map (·.value)⟩
    | _ => .error .check

/-- Direction, address and kind of an answer (R15 cause 3, R208). -/
def addressed (x : Slot) (kind : FrameKind) (a : Answer) : Bool :=
  a.addressByte == byteOf (addressOf x.stn + 128) && a.kindByte == frameKindCode kind

/-- The words of a run of bytes, most significant byte first. -/
def wordsOf : List Byte → List Word
  | hi :: lo :: rest => BitVec.ofNat 16 (u16 hi lo) :: wordsOf rest
  | _ => []

/-- What a good SCAN_ANSWER carries (R8). -/
structure ScanReport where
  echo : BitVec 4
  outputsSafe : Bool
  samples : List Word
  deriving DecidableEq, Repr

/-- A SCAN_ANSWER's payload, where it is well formed (R8, R15). -/
def readScan (inputs : Nat) : List Byte → Option ScanReport
  | echo :: status :: rest =>
    if rest.length = 2 * inputs ∧ echo.toNat ≤ 15 then
      some ⟨BitVec.ofNat 4 echo.toNat, status.getLsbD 0, wordsOf rest⟩
    else none
  | _ => none

/-- A ROLL_ANSWER's payload, where it is well formed (R9). -/
def readRoll : List Byte → Option Identity
  | [t1, t0, n3, n2, n1, n0, i, o] =>
    if u16 t1 t0 ≠ 0 ∧ i.toNat ≤ 24 ∧ o.toNat ≤ 16 then
      some ⟨u16 t1 t0, BitVec.ofNat 32 (u32 n3 n2 n1 n0), i.toNat, o.toNat⟩
    else none
  | _ => none

/-- What a good PARAM_ANSWER says (R10). -/
inductive ParamReport where
  | accepted (data : List Byte)
  | rejected
  deriving DecidableEq, Repr

/-- A PARAM_ANSWER's payload, where it is well formed for the transfer (R10). -/
def readParam (t : Transfer) : List Byte → Option ParamReport
  | a1 :: a0 :: c :: result :: data =>
    if u16 a1 a0 = t.paramAddr ∧ c.toNat = t.count then
      if result = 1 then (if data.length = 0 then some .rejected else none)
      else if result = 0 then
        match t.kind with
        | .read => if data.length = t.count then some (.accepted data) else none
        | .write => if data.length = 0 then some (.accepted []) else none
      else none
    else none
  | _ => none

/-- The verdict of a slot (R15): the answer's content, or the miss's reason. -/
def judge {α : Type} (x : Slot) (kind : FrameKind) (read : List Byte → Option α) (rx : List RxByte) :
    Except MissReason α :=
  match receive x rx with
  | .error r => .error r
  | .ok a =>
    if addressed x kind a then
      match read a.payload with
      | some v => .ok v
      | none => .error .mismatch
    else .error .mismatch

end Sys2Proof.Machine
end

