-- ==== Sys2Proof/Machine/LinkEvents.lean ====
section
/-! DEFINITION. The line's commands: cycle and slot starts (R18, R20 to R22) and the six verdicts (R26, R30 to
R33, R41). -/

namespace Sys2Proof.Machine

open Sys2Proof

/-! ### Slot starts -/

def openSlot (l : Line) (x : Option Slot) (s : State) : State := updLine l (fun e => { e with slot := x }) s

def plannedLength (e : LineEngine) (kind : SlotKind) : Option Nat :=
  (e.plan.find? (fun p => p.kind == kind)).map (·.length)

/-- A request is sent in a slot (R1, R6). -/
def sendRequest (k : Stn) (slotKind : SlotKind) (length : Nat) (kind : FrameKind) (payload : List Byte)
    (s : State) : State :=
  openSlot (lineOf k) (some
    { kind := slotKind, stn := k, request := fieldFrame false (addressOf k) kind payload,
      settings := (s.lines.get (lineOf k)).inForce, length := length, judged := false, void := false }) s

/-- A station slot begins (R20, R89): a slot of the running cycle, skipped when its station is not scanned. -/
def stationSlot (k : Stn) (s : State) : State :=
  match plannedLength (s.lines.get (lineOf k)) (.station k) with
  | none => s
  | some length =>
    if isScanned (stateOf s k) then
      let s := updOut k formBatch s
      sendRequest k (.station k) length .scan (scanPayload (outOf s k)) s
    else openSlot (lineOf k) none s

/-- The probe slot begins (R21). -/
def probeSlot (l : Line) (s : State) : State :=
  match plannedLength (s.lines.get l) .probe with
  | none => s
  | some length =>
    match rotate (s.lines.get l).probePtr (candidates s l) with
    | some k => sendRequest k .probe length .roll [] (updLine l (fun e => { e with probePtr := addressOf k }) s)
    | none => openSlot l none s

def transferKind : TransferKind → FrameKind
  | .read => .paramGet
  | .write => .paramPut

/-- The payload of PARAM_GET or PARAM_PUT (R10, R207). -/
def transferPayload (t : Transfer) : List Byte :=
  be16 t.paramAddr ++ [byteOf t.count] ++
    match t.kind with
    | .read => []
    | .write => t.data

/-- The parameter slot begins: one attempt of one transfer (R22, R41). -/
def paramSlot (l : Line) (s : State) : State :=
  match plannedLength (s.lines.get l) .param with
  | none => s
  | some length =>
    match rotate (s.lines.get l).paramPtr (withTransfer s l) with
    | some k =>
      match (s.stations.get k).transfer with
      | some t =>
        let s := updLine l (fun e => { e with paramPtr := addressOf k }) s
        let s := updStation k (fun r => { r with transfer := some { t with attempts := t.attempts + 1 } }) s
        sendRequest k .param length (transferKind t.kind) (transferPayload t) s
      | none => s
    | none => openSlot l none s

/-! ### SCAN verdicts (R30 to R33) -/

/-- The miss limit and policy that judge a station (R29, R31, R57). -/
def missRule (s : State) (k : Stn) : Nat × Policy :=
  match profileOf s k with
  | some p => (p.missLimit, p.policy)
  | none => (3, .retry)

/-- The record stays or becomes DEGRADED with `misses` misses; a change of state is reported (R25, R31). -/
def degrade (k : Stn) (misses : Nat) (s : State) : State :=
  let old := stateOf s k
  reportScanned k old (updStation k (fun r => { r with state := .degraded, misses := misses }) s)

/-- The one notice of a run of misses that reaches the limit under REPORT (R33). -/
def noteLimit (k : Stn) (s : State) : State :=
  if (s.stations.get k).limitNoted then s
  else stationNotice k (updStation k (fun r => { r with limitNoted := true, lastCause := .missLimit }) s)

/-- A missed SCAN (R31 to R33). Where REPORT's limit is reached by the miss that takes a JOINING station to DEGRADED (a
miss limit of 1), the notice of that move, with the last cause as it was, stands ahead of the notice of R33: the
spec gives the two no order (log entry 14). -/
def scanMissed (k : Stn) (reason : MissReason) (s : State) : State :=
  let s := updStation k (fun r => { r with lastMiss := some reason }) s
  let misses := (s.stations.get k).misses + 1
  let (limit, policy) := missRule s k
  if misses < limit then degrade k misses s
  else
    match policy with
    | .latch => leave k .fault .missLimit (updStation k (fun r => { r with misses := limit }) s)
    | .retry => leave k .holdoff .missLimit (updStation k (fun r => { r with misses := limit }) s)
    | .report => noteLimit k (degrade k limit s)
    | .ignore => degrade k limit s

/-- The output writer's part of a good answer: echo, acknowledgement, phase, resync (R91 to R93, R146). -/
def answerOutputs (k : Stn) (echo : BitVec 4) (outputsSafe : Bool) (s : State) : State :=
  let (o, acked) := ackOut echo (outOf s k)
  let s := updOut k (fun _ => o) s
  let s := match acked with
    | some b => noteBatch k b (reportSettled k (settledOutputs b o.list) s)
    | none => s
  if outputsSafe then resync k s else s

/-- The samples of a good answer: to the points of the window, or to the raw store (R8, R67, R201). -/
def answerSamples (k : Stn) (a : ScanReport) (s : State) : State :=
  match s.hub.mode with
  | .commission => { s with raw := s.raw.set k (some ⟨some a.samples, a.outputsSafe, 0⟩) }
  | _ =>
    match profileOf s k with
    | some p => deliverPoints (takeSamples p a.samples s.points) s
    | none => s

/-- A good SCAN_ANSWER (R30): the record, then the output writer, then the samples (log entry 13). -/
def scanGood (k : Stn) (a : ScanReport) (s : State) : State :=
  let old := stateOf s k
  let s := reportScanned k old (updStation k (fun r => { r with
    state := .online, misses := 0, limitNoted := false, lastCause := .good }) s)
  answerSamples k a (answerOutputs k a.echo a.outputsSafe s)

/-- The slot in progress on a line reaches its verdict once; bytes of a slot without a request, after its
verdict, or of another kind of slot are stray (R15, R16, R20). -/
def withSlot (l : Line) (f : Slot → State → State) (s : State) : State :=
  match (s.lines.get l).slot with
  | some x => if x.judged then s else f x (openSlot l (some { x with judged := true }) s)
  | none => s

/-- The verdict of a station slot (R15, R20, R30, R31). -/
def scanVerdict (l : Line) (rx : List RxByte) (s : State) : State :=
  match (s.lines.get l).slot with
  | some { kind := .station k, .. } =>
    withSlot l (fun x s =>
      if x.void || !isScanned (stateOf s k) then s
      else
        match judge x .scanAnswer (readScan (inputCount s k)) rx with
        | .ok a => scanGood k a s
        | .error r => scanMissed k r s) s
  | _ => s

/-- The verdict of a probe slot (R21): admission for a candidate while no mode change is pending. -/
def probeVerdict (l : Line) (rx : List RxByte) (s : State) : State :=
  match (s.lines.get l).slot with
  | some { kind := .probe, .. } =>
    withSlot l (fun x s =>
      match judge x .rollAnswer readRoll rx with
      | .ok i => if isCandidate s x.stn && s.hub.change.isNone then admission x.stn i s else s
      | .error _ => s) s
  | _ => s

/-- The settling of an attempt (R41). -/
def settleParam (k : Stn) (verdict : Except MissReason ParamReport) (t : Transfer) (s : State) : State :=
  match verdict with
  | .ok (.accepted data) => endTransfer k .ok data s
  | .ok .rejected => endTransfer k .rejected [] s
  | .error _ => if t.attempts < 3 then s else endTransfer k .timeout [] s

/-- The verdict of a parameter slot (R10, R41). -/
def paramVerdict (l : Line) (rx : List RxByte) (s : State) : State :=
  match (s.lines.get l).slot with
  | some { kind := .param, .. } =>
    withSlot l (fun x s =>
      if x.void then s
      else
        match (s.stations.get x.stn).transfer with
        | some t => settleParam x.stn (judge x .paramAnswer (readParam t) rx) t s
        | none => s) s
  | _ => s

/-- A HOLDOFF expiry (R32). -/
def holdoffEnds (k : Stn) (s : State) : State :=
  match stateOf s k, (s.stations.get k).holdoffExpiry with
  | .holdoff, some t =>
    leave k .absent .holdoffEnd
      (updStation k (fun r => { r with recovery := satSucc 255 r.recovery }) (reachTime t s))
  | _, _ => s

/-! ### The meanings of the rows -/

def execCycleStart (l : Line) (s : State) : Host.Outcome State Fault Refusal :=
  .next (unlessHeld (startCycle l) s)

def execStationSlotStart (k : Stn) (s : State) : Host.Outcome State Fault Refusal :=
  .next (unlessHeld (stationSlot k) s)

def execProbeSlotStart (l : Line) (s : State) : Host.Outcome State Fault Refusal :=
  .next (unlessHeld (probeSlot l) s)

def execParamSlotStart (l : Line) (s : State) : Host.Outcome State Fault Refusal :=
  .next (unlessHeld (paramSlot l) s)

/-- SCAN_ANSWER_GOOD: the bytes decide the verdict (R15; log entry 7). -/
def execScanAnswerGood (l : Line) (rx : List RxByte) (s : State) : Host.Outcome State Fault Refusal :=
  .next (unlessHeld (fun s => settleChange (scanVerdict l rx s)) s)

/-- SCAN_MISS: the bytes decide the verdict and its reason (R15; log entry 7). -/
def execScanMiss (l : Line) (rx : List RxByte) (s : State) : Host.Outcome State Fault Refusal :=
  .next (unlessHeld (fun s => settleChange (scanVerdict l rx s)) s)

def execRollAnswerGood (l : Line) (rx : List RxByte) (s : State) : Host.Outcome State Fault Refusal :=
  .next (unlessHeld (probeVerdict l rx) s)

def execProbeMiss (l : Line) (rx : List RxByte) (s : State) : Host.Outcome State Fault Refusal :=
  .next (unlessHeld (probeVerdict l rx) s)

def execParamAnswerGood (l : Line) (rx : List RxByte) (s : State) : Host.Outcome State Fault Refusal :=
  .next (unlessHeld (fun s => settleChange (paramVerdict l rx s)) s)

def execParamMiss (l : Line) (rx : List RxByte) (s : State) : Host.Outcome State Fault Refusal :=
  .next (unlessHeld (fun s => settleChange (paramVerdict l rx s)) s)

def execHoldoffExpiry (k : Stn) (s : State) : Host.Outcome State Fault Refusal :=
  .next (unlessHeld (holdoffEnds k) s)

end Sys2Proof.Machine
end

