-- ==== Sys2Proof/Machine/LocalInputs.lean ====
section
/-! DEFINITION. The local input pins: sampling and flips (R74, R75), with PLUG's fast path (R36, R37), and the
levels of the local output pins (R76, R100, R206). -/

namespace Sys2Proof.Machine

open Sys2Proof

def qualifyOf (s : State) (k : Nat) : Nat := s.store.working.qualifyMs.getD k 20

/-- The accepted value becomes the level (R74). -/
def acceptLevel (level : Bool) (p : Point) : Point :=
  { p with value := level.toNat, raw := some (levelWord level), counter := 0 }

/-- One sample of a local input (R74). -/
def samplePoint (qualify : Nat) (level : Bool) (p : Point) : Point :=
  if p.value = level.toNat then { p with raw := some (levelWord level), counter := 0 }
  else if qualify ≤ p.counter + 1 then acceptLevel level p
  else { p with raw := some (levelWord level), counter := p.counter + 1 }

/-- A flip of PLUG at the S-line engine while plug_used is 1 (R36, R37, R75). -/
def plugFlip (level : Bool) (s : State) : State :=
  if s.store.working.plugUsed then (if level then plugRise s else plugFall s) else s

/-- A local input's new record: its change set, and PLUG's flip at the S-line engine (R74, R75, R78). -/
def setInput (k : Nat) (level : Bool) (f : Point → Point) (s : State) : State :=
  let old := (pointAt s k).value
  let new := (f (pointAt s k)).value
  let s := deliverPoints (setPoint k f s.points) s
  if k = 0 ∧ old ≠ new then plugFlip level s else s

/-- One pin's sample. -/
def sampleInput (lin : Byte) (s : State) (k : Nat) : State :=
  setInput k (lin.getLsbD k) (samplePoint (qualifyOf s k) (lin.getLsbD k)) s

/-- Every pin is sampled, once every millisecond (R74; log entries 3 and 29). -/
def sampleInputs (lin : Byte) (s : State) : State :=
  [0, 1, 2, 3, 4, 5, 6, 7].foldl (sampleInput lin) { s with now := s.now + 1 }

/-- A pin's accepted value flips to its level (R74; log entry 29). -/
def flipInput (k : Nat) (level : Bool) (s : State) : State := setInput k level (acceptLevel level) s

/-- The level of pin LOUT0 to LOUT7 (R76, R100, R117, R206). -/
def lout (s : State) (k : Nat) : Bool :=
  match k with
  | 0 => !s.held && s.permitPins.a
  | 1 => !s.held && s.permitPins.b
  | k => !s.held && ((s.lampLines[k - 2]?).map (·.level)).getD false

/-! ### The meanings of the rows -/

def execLocalInputFlip (pin : Fin 8) (level : Bool) (s : State) : Host.Outcome State Fault Refusal :=
  .next (unlessHeld (fun s => settleChange (flipInput pin.val level s)) s)

def execLocalInputSample (lin : Byte) (s : State) : Host.Outcome State Fault Refusal :=
  .next (unlessHeld (fun s => settleChange (sampleInputs lin s)) s)

end Sys2Proof.Machine
end

