-- ==== Sys2Proof/Machine/HostRequests.lean ====
section
/-! DEFINITION. The host port's own requests: HUB_INFO (R194) and HUB_STATUS (R195). -/

namespace Sys2Proof.Machine

open Sys2Proof

/-- The four UART rates in baud (R178). -/
def uartBaud (rate : BitVec 2) : Nat :=
  match rate.toNat with
  | 0 => 115200
  | 1 => 230400
  | 2 => 460800
  | _ => 921600

/-- The UART rate that HUB_INFO reports: 0 in SPI (R194). -/
def reportedBaud (p : HostPort) : Nat :=
  match p.kind with
  | .uart => uartBaud p.rate
  | .spi => 0

def hubInfo (payload : List Byte) (s : State) : Status × List Byte :=
  match payload with
  | [] =>
    (.ok, be16 Config.partIdentifier.toNat ++ [Config.designRevision, portKindCode s.port.kind]
      ++ be32 (reportedBaud s.port) ++ be16 256 ++ [12, 8, 32] ++ be16 1024 ++ [4, 1])
  | _ => (.badArg, [])

/-! ### HUB_STATUS (R195, R211) -/

/-- The milliseconds left on a timer, 0 when it is stopped. -/
def timeLeft (now : Nat) (timer : Option Nat) : Nat := (timer.map (· - now)).getD 0

def allStates : List StationState := [.absent, .joining, .online, .degraded, .holdoff, .fault, .refused]

/-- The number of a line's stations in each state, in code order (R211). -/
def stateCounts (s : State) (l : Line) : List Byte :=
  allStates.map (fun st => byteOf ((lineStations l).countP (fun k => stateOf s k == st)))

def counterBytes (c : PortCounters) : List Byte :=
  be16 c.badCheck ++ be16 c.badLength ++ be16 c.breaks ++ be16 c.wrongClass ++ be16 c.droppedReplies
    ++ be16 c.droppedNotices

/-- The snapshot, taken after the restart of the silence timer and with this request in the table (R195). -/
def statusBody (s : State) : List Byte :=
  [modeCode s.hub.mode, bit s.hub.change.isSome, bit s.store.invalid, bit s.store.save.isSome,
   bit s.port.silent]
    ++ be16 (timeLeft s.now s.port.silenceTimer)
    ++ [byteOf s.port.table.length, byteOf (countSort .notice s.port.fifo), bit s.port.overflowed]
    ++ counterBytes s.port.counters ++ stateCounts s .s ++ stateCounts s .c

def clearCounters (s : State) : State := updPort (fun p => { p with counters := .zero }) s

def hubStatus (tag : Byte) (payload : List Byte) (s : State) : State :=
  match payload with
  | [b] =>
    match boolOfByte b with
    | none => replyBytes 2 tag .badArg [] s
    | some clear => replyBytes 2 tag .ok (statusBody s) (if clear then clearCounters s else s)
  | _ => replyBytes 2 tag .badArg [] s

def hubInfoRequest (tag : Byte) (payload : List Byte) (s : State) : State :=
  quickReply 1 tag (hubInfo payload) s

def hubStatusRequest (tag : Byte) (payload : List Byte) (s : State) : State :=
  takeRequest 2 tag (hubStatus tag payload) s

/-! ### The meanings of the rows -/

def execHubInfo (tag : Byte) (payload : List Byte) (s : State) : Host.Outcome State Fault Refusal :=
  .next (hubInfoRequest tag payload s)

def execHubStatus (tag : Byte) (payload : List Byte) (s : State) : Host.Outcome State Fault Refusal :=
  .next (hubStatusRequest tag payload s)

end Sys2Proof.Machine
end

