-- ==== Sys2Proof/Machine/AlertRequests.lean ====
section
/-! DEFINITION. ALERT_STATUS (R177) and ALERT_ACK (R176). -/

namespace Sys2Proof.Machine

open Sys2Proof

/-- The milliseconds left on the alert's running timer, 0 in QUIET (R177). -/
def alertTimeLeft (s : State) : Nat :=
  match s.cab.alert.state with
  | .quiet => 0
  | .sounding => timeLeft s.now s.cab.alert.soundTimer
  | .resting => timeLeft s.now s.cab.alert.restTimer

/-- One owned output: mode in effect, held mode present, held mode, level, outstanding (R211). -/
def ownedReport (s : State) (k : Nat) : List Byte :=
  let l := cabLamp s k
  [lampModeCode l.mode, bit l.held.isSome, (l.held.map lampModeCode).getD 0, bit l.level,
   bit (cabOutstanding s k)]

def alertStatus (payload : List Byte) (s : State) : Status × List Byte :=
  match payload with
  | [] =>
    let a := s.cab.alert
    (.ok, [alertStateCode a.state, alertReasonsByte a.reasons, byteOf a.count] ++ be16 (alertTimeLeft s)
      ++ be16 s.store.working.soundMs ++ be16 s.store.working.restMs
      ++ [groupCode s.cab.selected, stationStateCode s.cab.station] ++ ownedOutputs.flatMap (ownedReport s))
  | _ => (.badArg, [])

def alertAck (tag : Byte) (payload : List Byte) (s : State) : State :=
  match payload with
  | [] =>
    let a := s.cab.alert
    replyBytes 81 tag .ok [alertReasonsByte a.reasons, byteOf a.count] (ackAlert s)
  | _ => replyBytes 81 tag .badArg [] s

def alertStatusRequest (tag : Byte) (payload : List Byte) (s : State) : State :=
  quickReply 80 tag (alertStatus payload) s

def alertAckRequest (tag : Byte) (payload : List Byte) (s : State) : State :=
  takeRequest 81 tag (alertAck tag payload) s

/-! ### The meanings of the rows -/

def execAlertStatus (tag : Byte) (payload : List Byte) (s : State) : Host.Outcome State Fault Refusal :=
  .next (alertStatusRequest tag payload s)

def execAlertAck (tag : Byte) (payload : List Byte) (s : State) : Host.Outcome State Fault Refusal :=
  .next (alertAckRequest tag payload s)

end Sys2Proof.Machine
end

