-- ==== Sys2Proof/Machine/Framer.lean ====
section
/-! DEFINITION. The framer (R182) as a function of bytes: from the frame being assembled and the bytes that
arrive, the frames that complete, the frames that end as bad, and what is left. -/

namespace Sys2Proof.Machine

open Sys2Proof

/-- Why a frame ends as bad, by the counter it adds to (R182). -/
inductive BadFrame where
  | badCheck | badLength | broken
  deriving DecidableEq, Repr

/-- What the framer passes on. -/
inductive FramerEvent where
  | frame (cls code tag : Byte) (payload : List Byte)
  | bad (why : BadFrame)
  deriving DecidableEq, Repr

/-- What one byte does to a frame being assembled. -/
inductive FramerStep where
  | more
  | complete (cls code tag : Byte) (payload : List Byte)
  | bad (why : BadFrame)
  deriving DecidableEq, Repr

/-- A frame whose bytes so far are `buf`, the start byte first, the last one just arrived (R182): HEADER until
six bytes, then PAYLOAD, then CHECK. A framing error is tested first: a last byte that has one ends the frame as a
break, even where it also gives a length above 1,024 or a wrong check, which R182 does not order (log entry 52). -/
def assembled (buf : List HostByte) : FramerStep :=
  if ((buf.getLast?).map (fun b => !b.stopOk)).getD false then .bad .broken
  else
    match buf.map (·.value) with
    | _ :: hi :: lo :: rest =>
      let n := u16 hi lo
      if maxHostPayload < n then .bad .badLength
      else if rest.length < n + 5 then .more
      else
        match rest with
        | cls :: code :: tag :: more =>
          let payload := more.take n
          if checkBytes (hi :: lo :: cls :: code :: tag :: payload) = (more.drop n).take 2 then
            .complete cls code tag payload
          else .bad .badCheck
        | _ => .more
    | _ => .more

/-- A byte that opens a frame in HUNT; every other byte is discarded there (R182; log entry 22). -/
def opensFrame (b : HostByte) : Bool := b.stopOk && b.value == startByte

/-- The framer over a run of bytes. A bad frame's hunt restarts at the byte after its start byte (R182). `fuel`
bounds the steps: each byte is taken at most once for each frame start before it. -/
def feed : Nat → List HostByte → List HostByte → List FramerEvent × List HostByte
  | 0, buf, _ => ([], buf)
  | _ + 1, buf, [] => ([], buf)
  | fuel + 1, [], b :: bs => feed fuel (if opensFrame b then [b] else []) bs
  | fuel + 1, buf, b :: bs =>
    match assembled (buf ++ [b]) with
    | .more => feed fuel (buf ++ [b]) bs
    | .complete cls code tag payload =>
      let r := feed fuel [] bs
      (.frame cls code tag payload :: r.1, r.2)
    | .bad why =>
      let r := feed fuel [] ((buf ++ [b]).drop 1 ++ bs)
      (.bad why :: r.1, r.2)

/-- Steps enough for `n` bytes in all. -/
def feedFuel (n : Nat) : Nat := (n + 1) * (n + 1)

/-- Bytes that arrive without a gap of more than 20 ms. -/
def arriveBytes (buf bytes : List HostByte) : List FramerEvent × List HostByte :=
  feed (feedFuel (buf.length + bytes.length)) buf bytes

/-- A gap of more than 20 ms: a frame being assembled ends as a break, and the hunt restarts with the byte that
ended the gap (R182). -/
def arriveGap (buf before : List HostByte) (after : HostByte) : List FramerEvent × List HostByte :=
  let r := arriveBytes buf before
  let ended : List FramerEvent := if r.2.isEmpty then [] else [.bad .broken]
  let r' := arriveBytes [] [after]
  (r.1 ++ ended ++ r'.1, r'.2)

end Sys2Proof.Machine
end

