-- ==== Sys2Proof/Machine/Operands.lean ====
section
/-! DEFINITION. The operand forms that several request payloads share (R210, R211): a line and an address, a
group, and their reading; a payload of any other shape reads as none. -/

namespace Sys2Proof.Machine

open Sys2Proof

/-- A line and an address of that line (R38, R40, R97, R99): `none` for an unknown line or an address outside its
range. -/
def stationOperand (line address : Byte) : Option Stn :=
  (lineOfByte line).bind (fun l => stationAt l address.toNat)

/-- A payload that names a line and an address and nothing else. -/
def stationPayload : List Byte → Option Stn
  | [l, a] => stationOperand l a
  | _ => none

/-- A payload that names a group and nothing else. -/
def groupPayload : List Byte → Option Group
  | [g] => groupOfByte g
  | _ => none

/-- A payload that names a group and an operation kind (R140). -/
def operatePayload : List Byte → Option (Group × OpKind)
  | [g, k] => (groupOfByte g).bind (fun g => (opKindOfByte k).map (fun k => (g, k)))
  | _ => none

end Sys2Proof.Machine
end

