-- ==== Sys2Proof/Machine/GroupRequests.lean ====
section
/-! DEFINITION. The commands on lift groups: GROUP_STATUS (R120), the claims (R127 to R131), OPERATE (R140),
OP_STOP (R156), RESULT_TAKE (R158) and TRIP_CLEAR (R114). -/

namespace Sys2Proof.Machine

open Sys2Proof

/-! ### GROUP_STATUS (R120, R211) -/

def cornerReport (c : Corner) : List Byte :=
  [byteOf c.landed, byteOf c.locked, byteOf c.unlocked, cornerStateCode c.state]

/-- The position point, its value and quality; without a size part the three are 0 (log entry 20). -/
def positionReport (s : State) : Option Nat → List Byte
  | none => [0] ++ be16 0 ++ [0]
  | some i => [byteOf i] ++ be16Int (pointAt s i).value ++ [qualityCode (pointAt s i).quality]

/-- The operation in flight; without one its kind and phase are sent as 0 (log entry 20). -/
def operationReport : Option OpRec → List Byte
  | none => [0, 0, 0]
  | some r => [1, opKindCode r.kind, phaseCode r.phase]

/-- The profile recorded at the group's station. -/
def groupProfile (s : State) (r : GroupRec) : Option ProfileRef :=
  r.station.bind (fun k => (s.stations.get k).profile)

def groupStatus (payload : List Byte) (s : State) : Status × List Byte :=
  match groupPayload payload with
  | none => (.badArg, [])
  | some g =>
    let r := s.groups.get g
    let o := s.owners.get g
    (.ok, [groupCode g, bit r.bound, byteOf ((r.station.map addressOf).getD 0)]
      ++ profileRefBytes (groupProfile s r) ++ [byteOf r.corners.length] ++ r.corners.flatMap cornerReport
      ++ [lockStateCode r.lock, landedStateCode r.landed, sizeStateCode r.size]
      ++ positionReport s r.position
      ++ [bit r.slackReady, bit r.trip, bit r.permit, ownerCode o.owner] ++ be16 o.generation.toNat
      ++ operationReport (s.ops.get g))

/-! ### Claims (R127 to R131) -/

/-- The reply to a CLAIM_READ that passes (R128). -/
def claimReadReply (g : Group) (s : State) : List Byte :=
  let o := s.owners.get g
  [ownerCode o.owner] ++ be16 o.generation.toNat ++ be16 s.store.working.claimWindowMs
    ++ [bit o.marks.cab.isSome]

def claimRead (tag : Byte) (payload : List Byte) (s : State) : State :=
  match groupPayload payload with
  | none => replyBytes 65 tag .badArg [] s
  | some g =>
    match checkClaim g .remote s with
    | some st => replyBytes 65 tag st [] s
    | none => replyBytes 65 tag .ok (claimReadReply g s) (claimReadTake g .remote s)

def ownerReport (g : Group) (s : State) : List Byte :=
  [ownerCode (s.owners.get g).owner] ++ be16 (s.owners.get g).generation.toNat

def claimSet (tag : Byte) (payload : List Byte) (s : State) : State :=
  match groupPayload payload with
  | none => replyBytes 66 tag .badArg [] s
  | some g =>
    match checkClaim g .remote s with
    | some st => replyBytes 66 tag st [] s
    | none =>
      let r := claimSetTake g .remote s
      if r.2 then replyBytes 66 tag .ok (ownerReport g r.1) r.1 else replyBytes 66 tag .staleClaim [] r.1

def claimRelease (tag : Byte) (payload : List Byte) (s : State) : State :=
  match groupPayload payload with
  | none => replyBytes 67 tag .badArg [] s
  | some g =>
    if ownerIs s g .remote then
      let s := claimReleaseTake g s
      replyBytes 67 tag .ok (be16 (s.owners.get g).generation.toNat) s
    else replyBytes 67 tag .notOwner [] s

/-! ### OPERATE, OP_STOP and RESULT_TAKE (R140, R156, R158) -/

/-- The reply of a start, made after the start writes (R140, R145). -/
def startedReply (tag : Byte) (k : Stn) (length : Nat) (s : State) : State :=
  replyBytes 68 tag .ok ([0] ++ be16 length ++ [byteOf (outOf s k).list.length]) s

def operate (tag : Byte) (payload : List Byte) (s : State) : State :=
  match operatePayload payload with
  | none => replyBytes 68 tag .badArg [] s
  | some (g, kind) =>
    match checkStart g kind .remote s with
    | .refuse st => replyBytes 68 tag st [] s
    | .alreadyDone => replyBytes 68 tag .ok ([1] ++ be16 0 ++ [0]) (immediateDone g kind .remote s)
    | .start k gp length => startOperation g kind .remote k gp length (startedReply tag k length) s

def opStop (tag : Byte) (payload : List Byte) (s : State) : State :=
  match groupPayload payload with
  | none => replyBytes 69 tag .badArg [] s
  | some g =>
    if ownerIs s g .remote then
      let r := stopOperation g s
      match r.2 with
      | some kind => replyBytes 69 tag .ok [0, opKindCode kind] r.1
      | none => replyBytes 69 tag .ok [1] r.1
    else replyBytes 69 tag .notOwner [] s

/-- A slot's content: outcome, kind or request, phase at the end, abort reason or status; a field the result does
not carry is 0 (R211). -/
def resultBytes : Option OpResult → List Byte
  | none => [0]
  | some (.done k) => [1, 1, opKindCode k, 0, 0]
  | some (.timedOut k p) => [1, 2, opKindCode k, phaseCode p, 0]
  | some (.aborted k r) => [1, 3, opKindCode k, 0, abortReasonCode r]
  | some (.refused q st) => [1, 4, cabRequestCode q, 0, statusCode st]

def resultTake (tag : Byte) (payload : List Byte) (s : State) : State :=
  match groupPayload payload with
  | none => replyBytes 70 tag .badArg [] s
  | some g => replyBytes 70 tag .ok (resultBytes ((s.results.get g).get .remote)) (takeResult g .remote s)

/-! ### TRIP_CLEAR (R114) -/

/-- TRIP_CLEAR: the reply is made after the evaluation (R114, R185; log entry 40). -/
def tripClear (tag : Byte) (payload : List Byte) (s : State) : State :=
  match groupPayload payload with
  | none => replyBytes 71 tag .badArg [] s
  | some g =>
    match checkTripClear g .remote s with
    | .refuse st => replyBytes 71 tag st [] s
    | .notTripped => replyBytes 71 tag .ok [1] s
    | .cleared => replyBytes 71 tag .ok [0] (clearTrip g s)

def groupStatusRequest (tag : Byte) (payload : List Byte) (s : State) : State :=
  quickReply 64 tag (groupStatus payload) s

def claimReadRequest (tag : Byte) (payload : List Byte) (s : State) : State :=
  takeRequest 65 tag (claimRead tag payload) s

def claimSetRequest (tag : Byte) (payload : List Byte) (s : State) : State :=
  takeRequest 66 tag (claimSet tag payload) s

def claimReleaseRequest (tag : Byte) (payload : List Byte) (s : State) : State :=
  takeRequest 67 tag (claimRelease tag payload) s

def operateRequest (tag : Byte) (payload : List Byte) (s : State) : State :=
  takeRequest 68 tag (operate tag payload) s

def opStopRequest (tag : Byte) (payload : List Byte) (s : State) : State :=
  takeRequest 69 tag (opStop tag payload) s

def resultTakeRequest (tag : Byte) (payload : List Byte) (s : State) : State :=
  takeRequest 70 tag (resultTake tag payload) s

def tripClearRequest (tag : Byte) (payload : List Byte) (s : State) : State :=
  takeRequest 71 tag (tripClear tag payload) s

/-! ### The meanings of the rows; the cab's forms are the requests of R165 (log entry 25) -/

def execGroupStatus (tag : Byte) (payload : List Byte) (s : State) : Host.Outcome State Fault Refusal :=
  .next (groupStatusRequest tag payload s)

def execClaimRead (req : GroupRequest) (s : State) : Host.Outcome State Fault Refusal :=
  match req with
  | .remote tag payload => .next (claimReadRequest tag payload s)
  | .cab g => .next (unlessHeld (cabClaimRead g) s)

def execClaimSet (req : GroupRequest) (s : State) : Host.Outcome State Fault Refusal :=
  match req with
  | .remote tag payload => .next (claimSetRequest tag payload s)
  | .cab g => .next (unlessHeld (cabClaimSet g) s)

def execClaimRelease (req : GroupRequest) (s : State) : Host.Outcome State Fault Refusal :=
  match req with
  | .remote tag payload => .next (claimReleaseRequest tag payload s)
  | .cab g => .next (unlessHeld (cabClaimRelease g) s)

def execOperate (req : OpRequest) (s : State) : Host.Outcome State Fault Refusal :=
  match req with
  | .remote tag payload => .next (operateRequest tag payload s)
  | .cab g kind => .next (unlessHeld (cabOperate g kind) s)

def execOpStop (req : GroupRequest) (s : State) : Host.Outcome State Fault Refusal :=
  match req with
  | .remote tag payload => .next (opStopRequest tag payload s)
  | .cab g => .next (unlessHeld (cabStop g) s)

def execResultTake (tag : Byte) (payload : List Byte) (s : State) : Host.Outcome State Fault Refusal :=
  .next (resultTakeRequest tag payload s)

def execTripClear (req : GroupRequest) (s : State) : Host.Outcome State Fault Refusal :=
  match req with
  | .remote tag payload => .next (tripClearRequest tag payload s)
  | .cab g => .next (unlessHeld (cabTripClear g) s)

end Sys2Proof.Machine
end

