-- ==== Sys2Proof/Machine/LinePins.lean ====
section
/-! DEFINITION. The pins of the field lines, bit by bit (R1, R2, R4): the levels of STX or CTX and of SDE or CDE,
and when the receiver is open, at any moment of a slot. `true` is the mark level, and a pin that is high. Times are in
REFCLK periods (48 MHz) from the slot's start, so a bit lasts `divisor` of them. No state of the hub depends on these
levels; they are what a line shows (log entry 31). -/

namespace Sys2Proof.Machine

open Sys2Proof

/-! ### A byte's ten bits (R2) -/

/-- Start bit at space, eight data bits with the least significant first, stop bit at mark (R2). -/
def wireBits (b : Byte) : List Bool :=
  [false, b.getLsbD 0, b.getLsbD 1, b.getLsbD 2, b.getLsbD 3, b.getLsbD 4, b.getLsbD 5, b.getLsbD 6, b.getLsbD 7,
    true]

/-- The byte of ten bits received, its start bit at `start`: a stop bit at space is a framing error (R2, R14). Ten
bits that begin at mark are the idle line, and no byte. -/
def receivedByte (start : Nat) : List Bool → Option RxByte
  | [false, d0, d1, d2, d3, d4, d5, d6, d7, stop] =>
    some ⟨start, byteOf ([d7, d6, d5, d4, d3, d2, d1, d0].foldl (fun (n : Nat) (b : Bool) => 2 * n + b.toNat) 0), stop⟩
  | _ => none

/-! ### A slot's pins -/

/-- The level of STX or CTX in a slot: the request's bits while the driver is enabled, one after another, and mark
before and behind them (R1, R2). -/
def transmitLevel (x : Slot) (t : Nat) : Bool :=
  if driverEnabled x t then
    (x.request.flatMap wireBits).getD ((t - driverRises x) / x.settings.divisor) true
  else true

/-- The receiver of a slot: open from the fall of the driver-enable pin until the slot ends (R1). -/
def receiverOpens (x : Slot) (t : Nat) : Bool := decide (driverFalls x ≤ t) && decide (t < slotEnds x)

/-! ### A line's pins -/

/-- The slot whose request a line's pins show: none between slots, in a slot without a request, and while no cycle
runs (R1, R206). -/
def slotOnWire (s : State) (l : Line) : Option Slot :=
  if s.held || !(s.lines.get l).running then none else (s.lines.get l).slot

/-- The level of SDE or CDE. -/
def driverPin (s : State) (l : Line) (t : Nat) : Bool :=
  match slotOnWire s l with
  | some x => driverEnabled x t
  | none => false

/-- The level of STX or CTX. -/
def transmitPin (s : State) (l : Line) (t : Nat) : Bool :=
  match slotOnWire s l with
  | some x => transmitLevel x t
  | none => true

/-- Whether a line's receiver is open. -/
def receiverOpen (s : State) (l : Line) (t : Nat) : Bool :=
  match slotOnWire s l with
  | some x => receiverOpens x t
  | none => false

end Sys2Proof.Machine
end

