-- ==== Sys2Proof/Machine/Modes.lean ====
section
/-! DEFINITION. The mode record's commands: MODE_SET (R198) and MODE_TEARDOWN (R200). -/

namespace Sys2Proof.Machine

open Sys2Proof

/-- The start of a mode change (R198): the pending change, the MODE aborts, the MODE lapses, and the teardown at
once where no transfer is pending. The operations end, and then the owners lapse, on group A before group B (log
entry 43). -/
def startChange (target : Mode) (tag : Byte) (s : State) : State :=
  let s := { s with hub := { s.hub with change := some ⟨target, tag⟩ } }
  let s := endOperation .b (.aborted .mode) (endOperation .a (.aborted .mode) s)
  settleChange (modeLapse .b (modeLapse .a s))

/-- MODE_SET (R198). -/
def modeSet (tag : Byte) (payload : List Byte) (s : State) : State :=
  match payload with
  | [b] =>
    match modeOfByte b with
    | none => replyBytes 4 tag .badArg [] s
    | some target =>
      if s.hub.change.isSome then replyBytes 4 tag .busy [] s
      else if s.hub.mode = target then replyBytes 4 tag .ok [modeCode target] s
      else startChange target tag s
  | _ => replyBytes 4 tag .badArg [] s

def modeSetRequest (tag : Byte) (payload : List Byte) (s : State) : State :=
  takeRequest 4 tag (modeSet tag payload) s

/-! ### The meanings of the rows -/

def execModeSet (tag : Byte) (payload : List Byte) (s : State) : Host.Outcome State Fault Refusal :=
  .next (modeSetRequest tag payload s)

/-- MODE_TEARDOWN (R200; log entry 16). -/
def execModeTeardown (s : State) : Host.Outcome State Fault Refusal :=
  .next (unlessHeld settleChange s)

end Sys2Proof.Machine
end

