-- ==== Sys2Proof/Machine/PointRequests.lean ====
section
/-! DEFINITION. The requests on points and outputs (R80 to R82, R96, R99, R100). -/

namespace Sys2Proof.Machine

open Sys2Proof

/-! ### POINTS_READ and CHANGES_CLEAR (R81, R82, R211) -/

/-- The points of a range, in ascending index order. -/
def pointRange (s : State) (first count : Nat) : List Point := (s.points.drop first).take count

/-- A point in VALUES view: 8 bytes. -/
def pointBytes (p : Point) : List Byte :=
  [pointKindCode p.kind] ++ be16Int p.value ++ [bit p.raw.isSome] ++ be16 ((p.raw.getD 0).toNat)
    ++ [qualityCode p.quality, byteOf p.age]

/-- Up to eight changed flags as one byte, the first in bit 0. -/
def flagByte : List Point → Nat
  | [] => 0
  | p :: ps => p.changed.toNat + 2 * flagByte ps

/-- The CHANGES view: the flags eight to a byte. -/
def flagBytes : Nat → List Point → List Byte
  | 0, _ => []
  | n + 1, ps => byteOf (flagByte (ps.take 8)) :: flagBytes n (ps.drop 8)

def clearFlags (first count : Nat) (s : State) : State :=
  { s with points := mapWindow (fun _ p => { p with changed := false }) first count s.points }

def pointsRead (tag : Byte) (payload : List Byte) (s : State) : State :=
  match payload with
  | [f, c, view, clear] =>
    let first := f.toNat
    let count := c.toNat
    if 1 ≤ count ∧ count ≤ 64 ∧ first + count ≤ 256 ∧ view.toNat ≤ 1 ∧ clear.toNat ≤ 1 then
      let ps := pointRange s first count
      let data := if view = 0 then ps.flatMap pointBytes else flagBytes ((count + 7) / 8) ps
      replyBytes 48 tag .ok (be16 (changedCount s.points) ++ [f, c] ++ data)
        (if clear = 1 then clearFlags first count s else s)
    else replyBytes 48 tag .badArg [] s
  | _ => replyBytes 48 tag .badArg [] s

def changesClear (tag : Byte) (payload : List Byte) (s : State) : State :=
  match payload with
  | [f, c1, c0] =>
    let first := f.toNat
    let count := u16 c1 c0
    if 1 ≤ count ∧ first + count ≤ 256 then
      replyBytes 49 tag .ok (be16 (changedCount (pointRange s first count))) (clearFlags first count s)
    else replyBytes 49 tag .badArg [] s
  | _ => replyBytes 49 tag .badArg [] s

/-! ### POINT_NOTIFY (R80) -/

def pointNotify (tag : Byte) (payload : List Byte) (s : State) : State :=
  match payload with
  | [i, f] =>
    match boolOfByte f with
    | none => replyBytes 50 tag .badArg [] s
    | some flag =>
      let p := pointAt s i.toNat
      if p.quality = .unmapped then replyBytes 50 tag .notFound [] s
      else replyBytes 50 tag .ok [bit p.notify]
        { s with points := setPoint i.toNat (fun q => { q with notify := flag }) s.points }
  | _ => replyBytes 50 tag .badArg [] s

/-! ### POINT_WRITE (R96, R100) -/

/-- Where a writable point leads. -/
inductive WriteTarget where
  | lampLine (k : Nat)
  | output (k : Stn) (j : Nat)
  deriving DecidableEq, Repr

def writeTarget (i : Nat) (p : Point) : Option WriteTarget :=
  match p.home with
  | .localPin _ => if 10 ≤ i ∧ i ≤ 15 then some (.lampLine (i - 10)) else none
  | .cab j => some (.output .c1 j)
  | .station a j => (stationAt .s a).map (fun k => .output k j)
  | .none => none

/-- Check 4 of R96: the point's kind and the value's range. -/
def writable (kind : PointKind) (v : Nat) : Bool :=
  match kind with
  | .dout => decide (v ≤ 1)
  | .lamp => decide (v ≤ 3)
  | _ => false

/-- Checks 2 to 7 of R96 in order; check 1 cannot fail, since an index takes one byte. -/
def checkPointWrite (i v : Nat) (s : State) : Except Status WriteTarget :=
  let p := pointAt s i
  if s.hub.mode = .commission ∧ 15 < i then .error .mode
  else if p.quality = .unmapped then .error .notFound
  else if !writable p.kind v then .error .badArg
  else if p.owner != .free then .error .owned
  else
    match writeTarget i p with
    | none => .error .badArg
    | some (.lampLine k) => .ok (.lampLine k)
    | some (.output k j) =>
      if !isScanned (stateOf s k) then .error .notOnline
      else if !roomForWrite j (outOf s k) then .error .queueFull
      else .ok (.output k j)

def lampAt (s : State) (k : Nat) : LampRec := s.lampLines.getD k LampRec.reset

/-- A lamp line's new record, and its mode as its point's value (R76, R100). -/
def setLampLine (k : Nat) (l : LampRec) (s : State) : State :=
  setLocalOutput (10 + k) (lampModeNat l.mode) { s with lampLines := s.lampLines.set k l }

/-- The outcome of a write to a lamp line: TAKEN 2 or HELD 3 (R100, R212). -/
def lampOutcome (l : LampRec) : Byte := if isFlashing l.mode then 3 else 2

def pointWrite (tag : Byte) (payload : List Byte) (s : State) : State :=
  match payload with
  | [i, v1, v0] =>
    let v := u16 v1 v0
    match checkPointWrite i.toNat v s with
    | .error st => replyBytes 51 tag st [] s
    | .ok (.lampLine k) =>
      let l := lampAt s k
      replyBytes 51 tag .ok [lampOutcome l, 0]
        (setLampLine k (lampOffer ((lampModeOfNat v).getD .off) s.now l) s)
    | .ok (.output k j) =>
      let outcome := writeOutcome j (outOf s k)
      let s := enterWrite k j (BitVec.ofNat 16 v) s
      replyBytes 51 tag .ok [outcome, byteOf (outOf s k).list.length] s
  | _ => replyBytes 51 tag .badArg [] s

/-! ### POINT_FENCE (R99) -/

def pointFence (tag : Byte) (payload : List Byte) (s : State) : State :=
  match stationPayload payload with
  | none => replyBytes 52 tag .badArg [] s
  | some k =>
    let o := outOf s k
    if !isScanned (stateOf s k) then replyBytes 52 tag .notOnline [] s
    else if !fenceNeeded o then replyBytes 52 tag .ok [1, byteOf o.list.length] s
    else if ordinaryRoom ≤ o.list.length then replyBytes 52 tag .queueFull [] s
    else
      let s := updOut k (putEntry .fence) s
      replyBytes 52 tag .ok [0, byteOf (outOf s k).list.length] s

def pointsReadRequest (tag : Byte) (payload : List Byte) (s : State) : State :=
  takeRequest 48 tag (pointsRead tag payload) s

def changesClearRequest (tag : Byte) (payload : List Byte) (s : State) : State :=
  takeRequest 49 tag (changesClear tag payload) s

def pointNotifyRequest (tag : Byte) (payload : List Byte) (s : State) : State :=
  takeRequest 50 tag (pointNotify tag payload) s

def pointWriteRequest (tag : Byte) (payload : List Byte) (s : State) : State :=
  takeRequest 51 tag (pointWrite tag payload) s

def pointFenceRequest (tag : Byte) (payload : List Byte) (s : State) : State :=
  takeRequest 52 tag (pointFence tag payload) s

/-! ### The meanings of the rows -/

def execPointsRead (tag : Byte) (payload : List Byte) (s : State) : Host.Outcome State Fault Refusal :=
  .next (pointsReadRequest tag payload s)

def execChangesClear (tag : Byte) (payload : List Byte) (s : State) : Host.Outcome State Fault Refusal :=
  .next (changesClearRequest tag payload s)

def execPointNotify (tag : Byte) (payload : List Byte) (s : State) : Host.Outcome State Fault Refusal :=
  .next (pointNotifyRequest tag payload s)

def execPointWrite (tag : Byte) (payload : List Byte) (s : State) : Host.Outcome State Fault Refusal :=
  .next (pointWriteRequest tag payload s)

def execPointFence (tag : Byte) (payload : List Byte) (s : State) : Host.Outcome State Fault Refusal :=
  .next (pointFenceRequest tag payload s)

end Sys2Proof.Machine
end

