-- ==== Sys2Proof/Machine/ProfileRecords.lean ====
section
/-! DEFINITION. Profile records on the wire (R50 to R52, R211): reading for shape, checking field by field, and
writing a record back. -/

namespace Sys2Proof.Machine

open Sys2Proof

/-- Why a record is refused: BAD_ARG, or BAD_PROFILE with the field and element numbers (R50, R51). -/
inductive PutError where
  | badArg
  | badProfile (field element : Nat)
  deriving DecidableEq, Repr

/-- An input descriptor as sent: fields 5 to 9. -/
structure RawInput where
  kind : Nat
  qual : Nat
  offset : Nat
  gain : Nat
  notify : Nat
  deriving DecidableEq, Repr

/-- An output descriptor as sent: fields 10 to 12. -/
structure RawOutput where
  kind : Nat
  initial : Nat
  notify : Nat
  deriving DecidableEq, Repr

/-- The size part as sent: fields 28 to 33. -/
structure RawSize where
  position : Nat
  out20 : Nat
  out40 : Nat
  out45 : Nat
  tolerance : Nat
  sizeMs : Nat
  deriving DecidableEq, Repr

/-- The flip part as sent: fields 35 to 37. -/
structure RawFlip where
  upOut : Nat
  downOut : Nat
  flipMs : Nat
  deriving DecidableEq, Repr

/-- The group part as sent: fields 18 to 37. -/
structure RawGroup where
  role : Nat
  corners : List CornerDef
  lockOut : Nat
  unlockOut : Nat
  lockMs : Nat
  requireSlack : Nat
  size : Option RawSize
  flip : Option RawFlip
  deriving DecidableEq, Repr

/-- A record that has passed R50's reading for shape. -/
structure RawProfile where
  typeCode : Nat
  inputs : List RawInput
  outputs : List RawOutput
  base : Nat
  maxAgeMs : Nat
  missLimit : Nat
  policy : Nat
  retryMs : Nat
  group : Option RawGroup
  deriving DecidableEq, Repr

/-! ### Reading for shape (R50) -/

/-! Each reader answers the value read from the front of a payload, and what is left. -/

def rd8 : List Byte → Except PutError (Nat × List Byte)
  | b :: rest => .ok (b.toNat, rest)
  | [] => .error .badArg

def rd16 : List Byte → Except PutError (Nat × List Byte)
  | hi :: lo :: rest => .ok (u16 hi lo, rest)
  | _ => .error .badArg

/-- One of the six fields that decide the shape: out of range is BAD_PROFILE at once. -/
def rdShape (field : Nat) (inRange : Nat → Bool) (bs : List Byte) : Except PutError (Nat × List Byte) :=
  match rd8 bs with
  | .ok (n, rest) => if inRange n then .ok (n, rest) else .error (.badProfile field 0)
  | .error e => .error e

def rdInput : List Byte → Except PutError (RawInput × List Byte)
  | k :: q :: o1 :: o0 :: g1 :: g0 :: n :: rest =>
    .ok (⟨k.toNat, q.toNat, u16 o1 o0, u16 g1 g0, n.toNat⟩, rest)
  | _ => .error .badArg

def rdOutput : List Byte → Except PutError (RawOutput × List Byte)
  | k :: i :: n :: rest => .ok (⟨k.toNat, i.toNat, n.toNat⟩, rest)
  | _ => .error .badArg

def rdCorner : List Byte → Except PutError (CornerDef × List Byte)
  | l :: k :: u :: rest => .ok (⟨l.toNat, k.toNat, u.toNat⟩, rest)
  | _ => .error .badArg

/-- `n` elements read one after another. -/
def rdMany {α : Type} (rd : List Byte → Except PutError (α × List Byte)) :
    Nat → List Byte → Except PutError (List α × List Byte)
  | 0, bs => .ok ([], bs)
  | n + 1, bs =>
    match rd bs with
    | .error e => .error e
    | .ok (x, rest) =>
      match rdMany rd n rest with
      | .error e => .error e
      | .ok (xs, rest) => .ok (x :: xs, rest)

def rdSize (bs : List Byte) : Except PutError (RawSize × List Byte) := do
  let (p, bs) ← rd8 bs
  let (a, bs) ← rd8 bs
  let (b, bs) ← rd8 bs
  let (c, bs) ← rd8 bs
  let (t, bs) ← rd8 bs
  let (m, bs) ← rd16 bs
  return (⟨p, a, b, c, t, m⟩, bs)

def rdFlip (bs : List Byte) : Except PutError (RawFlip × List Byte) := do
  let (u, bs) ← rd8 bs
  let (d, bs) ← rd8 bs
  let (m, bs) ← rd16 bs
  return (⟨u, d, m⟩, bs)

/-- A part that stands when its flag is 1. -/
def rdPart {α : Type} (present : Nat) (rd : List Byte → Except PutError (α × List Byte)) (bs : List Byte) :
    Except PutError (Option α × List Byte) :=
  if present = 1 then
    match rd bs with
    | .ok (x, rest) => .ok (some x, rest)
    | .error e => .error e
  else .ok (none, bs)

def isFlag (n : Nat) : Bool := decide (n ≤ 1)

def rdGroup (bs : List Byte) : Except PutError (RawGroup × List Byte) := do
  let (role, bs) ← rd8 bs
  let (cc, bs) ← rdShape 19 (fun n => n == 4 || n == 8) bs
  let (corners, bs) ← rdMany rdCorner cc bs
  let (lockOut, bs) ← rd8 bs
  let (unlockOut, bs) ← rd8 bs
  let (lockMs, bs) ← rd16 bs
  let (slack, bs) ← rd8 bs
  let (sizeFlag, bs) ← rdShape 27 isFlag bs
  let (size, bs) ← rdPart sizeFlag rdSize bs
  let (flipFlag, bs) ← rdShape 34 isFlag bs
  let (flip, bs) ← rdPart flipFlag rdFlip bs
  return (⟨role, corners, lockOut, unlockOut, lockMs, slack, size, flip⟩, bs)

def rdProfile (bs : List Byte) : Except PutError (RawProfile × List Byte) := do
  let (t, bs) ← rd16 bs
  let (ni, bs) ← rdShape 2 (fun n => decide (n ≤ 24)) bs
  let (no, bs) ← rdShape 3 (fun n => decide (n ≤ 16)) bs
  let (base, bs) ← rd8 bs
  let (inputs, bs) ← rdMany rdInput ni bs
  let (outputs, bs) ← rdMany rdOutput no bs
  let (age, bs) ← rd16 bs
  let (limit, bs) ← rd8 bs
  let (policy, bs) ← rd8 bs
  let (retry, bs) ← rd16 bs
  let (groupFlag, bs) ← rdShape 17 isFlag bs
  let (group, bs) ← rdPart groupFlag rdGroup bs
  return (⟨t, inputs, outputs, base, age, limit, policy, retry, group⟩, bs)

/-- R50: the record, with nothing left over. -/
def readShape (payload : List Byte) : Except PutError RawProfile :=
  match rdProfile payload with
  | .ok (p, []) => .ok p
  | .ok (_, _ :: _) => .error .badArg
  | .error e => .error e

/-! ### Checking (R51, R52) -/

/-- One check: field, element, and whether it passes. -/
abbrev FieldCheck := Nat × Nat × Bool

def within (lo hi n : Nat) : Bool := decide (lo ≤ n) && decide (n ≤ hi)

/-- One check per element of a list field, in ascending element number. -/
def eachElement {α : Type} (field : Nat) (ok : α → Bool) : Nat → List α → List FieldCheck
  | _, [] => []
  | n, x :: xs => (field, n, ok x) :: eachElement field ok (n + 1) xs

def isDinIndex (inputs : List RawInput) (i : Nat) : Bool := ((inputs[i]?).map (·.kind == 1)).getD false
def isAinIndex (inputs : List RawInput) (i : Nat) : Bool := ((inputs[i]?).map (·.kind == 2)).getD false

/-- Corner by corner, fields 20, 21, 22 (R51, R52): `locks` are the locked and unlocked inputs named so far,
`names` every corner input named so far. -/
def cornerChecks (inputs : List RawInput) : Nat → List Nat → List Nat → List CornerDef → List FieldCheck
  | _, _, _, [] => []
  | n, locks, names, c :: cs =>
    (20, n, isDinIndex inputs c.landed && !locks.contains c.landed)
      :: (21, n, isDinIndex inputs c.locked && !(c.landed :: names).contains c.locked)
      :: (22, n, isDinIndex inputs c.unlocked && !(c.locked :: c.landed :: names).contains c.unlocked)
      :: cornerChecks inputs (n + 1) (c.unlocked :: c.locked :: locks)
          (c.unlocked :: c.locked :: c.landed :: names) cs

/-- A group output's check: in range, not named before, initial value not 1 (R51, R52). -/
def outputCheck (outputs : List RawOutput) (named : List Nat) (field j : Nat) : FieldCheck :=
  (field, 0, ((outputs[j]?).map (fun o => o.initial != 1)).getD false && !named.contains j)

def sizeChecks (p : RawProfile) (named : List Nat) (z : RawSize) : List FieldCheck :=
  [(28, 0, isAinIndex p.inputs z.position),
   outputCheck p.outputs named 29 z.out20,
   outputCheck p.outputs (z.out20 :: named) 30 z.out40,
   outputCheck p.outputs (z.out40 :: z.out20 :: named) 31 z.out45,
   (32, 0, within 5 200 z.tolerance),
   (33, 0, within 2000 60000 z.sizeMs)]

def sizeNames : Option RawSize → List Nat
  | some z => [z.out45, z.out40, z.out20]
  | none => []

def flipChecks (p : RawProfile) (named : List Nat) (f : RawFlip) : List FieldCheck :=
  [outputCheck p.outputs named 35 f.upOut,
   outputCheck p.outputs (f.upOut :: named) 36 f.downOut,
   (37, 0, within 200 5000 f.flipMs)]

def groupChecks (p : RawProfile) (g : RawGroup) : List FieldCheck :=
  let named := [g.unlockOut, g.lockOut]
  [(18, 0, isFlag g.role)]
    ++ cornerChecks p.inputs 0 [] [] g.corners
    ++ [outputCheck p.outputs [] 23 g.lockOut,
        outputCheck p.outputs [g.lockOut] 24 g.unlockOut,
        (25, 0, within 500 10000 g.lockMs),
        (26, 0, isFlag g.requireSlack)]
    ++ (g.size.map (sizeChecks p named)).getD []
    ++ (g.flip.map (flipChecks p (sizeNames g.size ++ named))).getD []

/-- Every check of R51 in its order; the shape fields have been checked as they were read. -/
def profileChecks (p : RawProfile) : List FieldCheck :=
  let size := p.inputs.length + p.outputs.length
  [(1, 0, decide (1 ≤ p.typeCode)),
   (4, 0, within 48 255 p.base && (size == 0 || decide (p.base + size - 1 ≤ 255)))]
    ++ eachElement 5 (fun d => d.kind == 1 || d.kind == 2) 0 p.inputs
    ++ eachElement 6 (fun d => d.kind != 1 || within 1 15 d.qual) 0 p.inputs
    ++ eachElement 7 (fun d => d.kind != 2 || decide (d.offset ≤ 4095)) 0 p.inputs
    ++ eachElement 9 (fun d => isFlag d.notify) 0 p.inputs
    ++ eachElement 10 (fun d => d.kind == 3) 0 p.outputs
    ++ eachElement 11 (fun d => isFlag d.initial) 0 p.outputs
    ++ eachElement 12 (fun d => isFlag d.notify) 0 p.outputs
    ++ [(13, 0, within 10 2000 p.maxAgeMs),
        (14, 0, within 1 15 p.missLimit),
        (15, 0, decide (p.policy ≤ 3)),
        (16, 0, within 100 60000 p.retryMs)]
    ++ (p.group.map (groupChecks p)).getD []

/-! ### The stored record (R45) -/

def toInput (d : RawInput) : InputDesc :=
  ⟨if d.kind = 2 then .ain d.offset (signed16 d.gain) else .din d.qual, d.notify == 1⟩

def toOutput (d : RawOutput) : OutputDesc := ⟨d.initial == 1, d.notify == 1⟩

def toPolicy : Nat → Policy
  | 0 => .latch
  | 1 => .retry
  | 2 => .report
  | _ => .ignore

def toGroup (g : RawGroup) : GroupPart where
  role := if g.role = 0 then .a else .b
  corners := g.corners
  lockOut := g.lockOut
  unlockOut := g.unlockOut
  lockMs := g.lockMs
  requireSlack := g.requireSlack == 1
  size := g.size.map (fun z => ⟨z.position, z.out20, z.out40, z.out45, z.tolerance, z.sizeMs⟩)
  flip := g.flip.map (fun f => ⟨f.upOut, f.downOut, f.flipMs⟩)

def toProfile (p : RawProfile) : Profile where
  typeCode := p.typeCode
  inputs := p.inputs.map toInput
  outputs := p.outputs.map toOutput
  base := p.base
  maxAgeMs := p.maxAgeMs
  missLimit := p.missLimit
  policy := toPolicy p.policy
  retryMs := p.retryMs
  group := p.group.map toGroup

/-- A payload read and checked (R50 to R52): the record as the table stores it, or the refusal. -/
def readProfile (payload : List Byte) : Except PutError Profile :=
  match readShape payload with
  | .error e => .error e
  | .ok p =>
    match (profileChecks p).find? (fun c => !c.2.2) with
    | some c => .error (.badProfile c.1 c.2.1)
    | none => .ok (toProfile p)

/-! ### A record written (R55, R211) -/

def inputBytes (d : InputDesc) : List Byte :=
  match d.kind with
  | .din qual => [1, byteOf qual, 0, 0, 0, 0, bit d.notify]
  | .ain offset gain => [2, 0] ++ be16 offset ++ be16Int gain ++ [bit d.notify]

def outputBytes (d : OutputDesc) : List Byte := [3, bit d.initial, bit d.notify]

def cornerBytes (c : CornerDef) : List Byte := [byteOf c.landed, byteOf c.locked, byteOf c.unlocked]

def sizeBytes (z : SizePart) : List Byte :=
  [byteOf z.position, byteOf z.out20, byteOf z.out40, byteOf z.out45, byteOf z.toleranceMm] ++ be16 z.sizeMs

def flipBytes (f : FlipPart) : List Byte := [byteOf f.upOut, byteOf f.downOut] ++ be16 f.flipMs

/-- A present flag and its part. -/
def partBytes {α : Type} (enc : α → List Byte) : Option α → List Byte
  | some x => 1 :: enc x
  | none => [0]

def groupBytes (g : GroupPart) : List Byte :=
  [groupCode g.role, byteOf g.corners.length] ++ g.corners.flatMap cornerBytes
    ++ [byteOf g.lockOut, byteOf g.unlockOut] ++ be16 g.lockMs ++ [bit g.requireSlack]
    ++ partBytes sizeBytes g.size ++ partBytes flipBytes g.flip

/-- The whole record in field-number order (R211). -/
def profileBytes (p : Profile) : List Byte :=
  be16 p.typeCode ++ [byteOf p.inputs.length, byteOf p.outputs.length, byteOf p.base]
    ++ p.inputs.flatMap inputBytes ++ p.outputs.flatMap outputBytes
    ++ be16 p.maxAgeMs ++ [byteOf p.missLimit, policyCode p.policy] ++ be16 p.retryMs
    ++ partBytes groupBytes p.group

end Sys2Proof.Machine
end

