-- ==== Sys2Proof/Machine/ProfileRequests.lean ====
section
/-! DEFINITION. The profile table's commands (R53 to R56). -/

namespace Sys2Proof.Machine

open Sys2Proof

def profileLimit : Nat := 12

/-- The S-line addresses whose stations use a profile (R55, R56). The spec gives the use list no order; it is ascending
here (log entry 48). -/
def usersOf (s : State) (ref : ProfileRef) : List Stn :=
  (lineStations .s).filter (fun k => (s.stations.get k).profile == some ref)

def inUse (s : State) (t : Nat) : Bool := !(usersOf s (.table t)).isEmpty

/-- A profile put in type-code order, in the place of one of its own type code (R43, R53). -/
def insertProfile (p : Profile) : List Profile → List Profile
  | [] => [p]
  | q :: qs =>
    if p.typeCode < q.typeCode then p :: q :: qs
    else if p.typeCode = q.typeCode then p :: qs
    else q :: insertProfile p qs

def usersBytes (ks : List Stn) : List Byte := byteOf ks.length :: ks.map (fun k => byteOf (addressOf k))

/-- PROFILE_PUT (R50 to R53). -/
def profilePut (tag : Byte) (payload : List Byte) (s : State) : State :=
  match readProfile payload with
  | .error .badArg => replyBytes 16 tag .badArg [] s
  | .error (.badProfile field element) => replyBytes 16 tag .badProfile [byteOf field, byteOf element] s
  | .ok p =>
    if (tableProfile s p.typeCode).isSome then
      if inUse s p.typeCode then replyBytes 16 tag .inUse [] s
      else
        let table := insertProfile p s.profiles
        replyBytes 16 tag .ok [1, byteOf table.length] { s with profiles := table }
    else if profileLimit ≤ s.profiles.length then replyBytes 16 tag .noRoom [] s
    else
      let table := insertProfile p s.profiles
      replyBytes 16 tag .ok [0, byteOf table.length] { s with profiles := table }

/-- PROFILE_GET's answer (R55): the record, then the S-line addresses that use it. -/
def profileGet (payload : List Byte) (s : State) : Status × List Byte :=
  match payload with
  | [kind, t1, t0] =>
    match kind.toNat with
    | 0 =>
      match tableProfile s (u16 t1 t0) with
      | some p => (.ok, profileBytes p ++ usersBytes (usersOf s (.table (u16 t1 t0))))
      | none => (.notFound, [])
    | 1 => (.ok, profileBytes spreaderProfile ++ usersBytes (usersOf s .builtInSpreader))
    | 2 => (.ok, profileBytes cabProfile ++ usersBytes (usersOf s .builtInCab))
    | _ => (.badArg, [])
  | _ => (.badArg, [])

/-- PROFILE_DROP (R54). -/
def profileDrop (tag : Byte) (payload : List Byte) (s : State) : State :=
  match payload with
  | [t1, t0] =>
    let t := u16 t1 t0
    if (tableProfile s t).isNone then replyBytes 18 tag .notFound [] s
    else if inUse s t then replyBytes 18 tag .inUse [] s
    else
      let table := s.profiles.filter (fun p => p.typeCode != t)
      replyBytes 18 tag .ok [byteOf table.length] { s with profiles := table }
  | _ => replyBytes 18 tag .badArg [] s

/-- One entry of PROFILE_LIST (R56, R211). -/
def listEntry (s : State) (p : Profile) : List Byte :=
  be16 p.typeCode
    ++ [byteOf p.inputs.length, byteOf p.outputs.length, byteOf p.base, byteOf (p.base + windowSize p - 1),
        bit p.group.isSome, (p.group.map (fun g => groupCode g.role)).getD 0]
    ++ usersBytes (usersOf s (.table p.typeCode))

def profileList (payload : List Byte) (s : State) : Status × List Byte :=
  match payload with
  | [] => (.ok, [byteOf s.profiles.length, byteOf profileLimit] ++ s.profiles.flatMap (listEntry s))
  | _ => (.badArg, [])

def profilePutRequest (tag : Byte) (payload : List Byte) (s : State) : State :=
  takeRequest 16 tag (profilePut tag payload) s

def profileGetRequest (tag : Byte) (payload : List Byte) (s : State) : State :=
  quickReply 17 tag (profileGet payload) s

def profileDropRequest (tag : Byte) (payload : List Byte) (s : State) : State :=
  takeRequest 18 tag (profileDrop tag payload) s

def profileListRequest (tag : Byte) (payload : List Byte) (s : State) : State :=
  quickReply 19 tag (profileList payload) s

/-! ### The meanings of the rows -/

def execProfilePut (tag : Byte) (payload : List Byte) (s : State) : Host.Outcome State Fault Refusal :=
  .next (profilePutRequest tag payload s)

def execProfileGet (tag : Byte) (payload : List Byte) (s : State) : Host.Outcome State Fault Refusal :=
  .next (profileGetRequest tag payload s)

def execProfileDrop (tag : Byte) (payload : List Byte) (s : State) : Host.Outcome State Fault Refusal :=
  .next (profileDropRequest tag payload s)

def execProfileList (tag : Byte) (payload : List Byte) (s : State) : Host.Outcome State Fault Refusal :=
  .next (profileListRequest tag payload s)

end Sys2Proof.Machine
end

