-- ==== Sys2Proof/Machine/Reset.lean ====
section
/-! DEFINITION. Reset (R206): the four reset commands and HUB_RESET (R191). -/

namespace Sys2Proof.Machine

open Sys2Proof

/-- What the store loads (R204): the image, or the factory defaults and an empty table. -/
def loadImage (image : Option Stored) : Stored := image.getD ⟨Settings.factory, []⟩

/-- The image as the load finds it: a write that a reset cuts off leaves its CRC bad (R205). -/
def imageAtLoad (v : Store) : Option Stored := if v.save.isSome then none else v.image

/-- A link engine at its first cycle (R24, R206; log entry 17). -/
def engineAtReset (l : Line) (ls : LineSettings) (suspended : Bool) : LineEngine where
  inForce := ls
  awaiting := none
  active := []
  next := []
  probePtr := topAddress l
  paramPtr := topAddress l
  suspended := suspended
  running := true
  plan := [⟨.probe, 0, probeSlotCost ls⟩, ⟨.param, probeSlotCost ls, paramSlotCost ls⟩]
  slot := none

/-- The HUB notice STORE_INVALID (R204, R211). -/
def storeInvalidMessage : Message := ⟨.notice, noticeCode .hub, 0, [2], false, false⟩

/-- The host port after a reset (R196): straps as read, the first message STORE_INVALID where the image's CRC
is bad, the timer started with the loaded timeout (R192). -/
def portAtReset (portsel : Bool) (baud : BitVec 2) (image : Option Stored) (now : Nat) : HostPort where
  kind := if portsel then .spi else .uart
  rate := baud
  framer := []
  table := []
  fifo := if image.isNone then [storeInvalidMessage] else []
  sent := 0
  overflowed := false
  counters := .zero
  silent := false
  silenceTimer :=
    let t := (loadImage image).settings.hostTimeoutMs
    if t = 0 then none else some (now + t)
  resetBy := none
  lastFrame := []

/-- The hub returns to its reset state (R206): straps, image, mode, the first samples of LIN0 to LIN7, and every
block's reset values. The queue of waiting commands, the free-value counter and the millisecond clock are the
model's own and are kept (log entry 3). -/
def resetHub (portsel : Bool) (baud : BitVec 2) (lin : Byte) (s : State) : State :=
  let image := imageAtLoad s.store
  let loaded := loadImage image
  { lines :=
      ⟨engineAtReset .s loaded.settings.line.s (loaded.settings.plugUsed && !lin.getLsbD 0),
       engineAtReset .c loaded.settings.line.c false⟩
    stations := .all .reset
    profiles := loaded.profiles
    points := Point.imageAtReset lin
    staleLimits := .all none
    outputs := .all .reset
    lampLines := List.replicate 6 LampRec.reset
    groups := ⟨.unbound, .unbound⟩
    permitPins := ⟨false, false⟩
    owners := ⟨.reset, .reset⟩
    ops := ⟨none, none⟩
    results := ⟨⟨none, none⟩, ⟨none, none⟩⟩
    cab := .reset
    port := portAtReset portsel baud image s.now
    hub := ⟨loaded.settings.startMode, none⟩
    raw := .all none
    store := ⟨loaded.settings, image, image.isNone, none⟩
    held := false
    now := s.now
    choices := s.choices
    pending := s.pending }

/-- A link engine while the RESET pin is low: no cycle, no slot, the driver disabled (R206). -/
def stopEngine (e : LineEngine) : LineEngine := { e with running := false, plan := [], slot := none }

/-- A lamp line while the RESET pin is low: pin 0, no timer (R206). -/
def darkLamp (l : LampRec) : LampRec := { l with level := false, timer := none }

/-- The fall of the RESET pin (R206): the hub is held, the lines stop, LOUT0 to LOUT7 go to 0, and a write in
progress is cut off (R205). -/
def resetPinFall (s : State) : State :=
  if s.held then s
  else
    { s with
      held := true
      lines := ⟨stopEngine s.lines.s, stopEngine s.lines.c⟩
      permitPins := ⟨false, false⟩
      lampLines := s.lampLines.map darkLamp
      store := { s.store with image := imageAtLoad s.store, save := none } }

/-- What a HUB_RESET drops as it is taken: a pending mode change, whose MODE_SET is never answered (R199), and a write
in progress, which is cut off and leaves the image bad (R205). Their requests stay outstanding until the reset (R191;
log entry 45). -/
def dropTimedWork (s : State) : State :=
  { s with
    hub := { s.hub with change := none }
    store := { s.store with image := imageAtLoad s.store, save := none } }

/-- HUB_RESET (R191): the reply, and from then on no frame is taken; a mode change and a write are dropped. -/
def hubReset (tag : Byte) (payload : List Byte) (s : State) : State :=
  match payload with
  | [] =>
    updPort (fun p => { p with resetBy := some (s.now + 100) }) (replyBytes 3 tag .ok [] (dropTimedWork s))
  | _ => replyBytes 3 tag .badArg [] s

/-- The reply of a HUB_RESET that has been taken has left the FIFO, and every message ahead of it (R188, R191): its
request stays outstanding until then, and no other can follow it. -/
def hubResetReplySent (s : State) : Bool := s.port.resetBy.isSome && !s.port.table.any (fun o => o.code == 3)

/-- The reset of a HUB_RESET that has been taken (R191): now where its reply has been sent, and otherwise as the
100 ms end, at the time in `resetBy` (log entry 3). -/
def hubResetDue (portsel : Bool) (baud : BitVec 2) (lin : Byte) (s : State) : State :=
  match s.port.resetBy with
  | some t => resetHub portsel baud lin (if hubResetReplySent s then s else reachTime t s)
  | none => s

def hubResetRequest (tag : Byte) (payload : List Byte) (s : State) : State :=
  takeRequest 3 tag (hubReset tag payload) s

/-! ### The meanings of the rows -/

def execPowerOnReset (portsel : Bool) (baud : BitVec 2) (lin : Byte) (s : State) :
    Host.Outcome State Fault Refusal :=
  .next (resetHub portsel baud lin s)

def execResetPinFall (s : State) : Host.Outcome State Fault Refusal :=
  .next (resetPinFall s)

/-- The release of a RESET pin that is low; a pin that is high has none. -/
def execResetPinRelease (portsel : Bool) (baud : BitVec 2) (lin : Byte) (s : State) :
    Host.Outcome State Fault Refusal :=
  .next (if s.held then resetHub portsel baud lin s else s)

def execHubReset (tag : Byte) (payload : List Byte) (s : State) : Host.Outcome State Fault Refusal :=
  .next (hubResetRequest tag payload s)

/-- The reset of a HUB_RESET that has been taken (R191, R206). -/
def execHubResetTakesPlace (portsel : Bool) (baud : BitVec 2) (lin : Byte) (s : State) :
    Host.Outcome State Fault Refusal :=
  .next (unlessHeld (hubResetDue portsel baud lin) s)

end Sys2Proof.Machine
end

