-- ==== Sys2Proof/Machine/Settings.lean ====
section
/-! DEFINITION. The settings store's commands (R202, R203, R205). -/

namespace Sys2Proof.Machine

open Sys2Proof

/-! ### Items (R202, R211, R212) -/

/-- An item: a setting's number and a value. -/
abbrev Item := Nat × Nat

/-- The items of a payload after its count, three bytes each; `none` where a byte is missing. -/
def readItems : List Byte → Option (List Item)
  | [] => some []
  | k :: hi :: lo :: rest => (readItems rest).map ((k.toNat, u16 hi lo) :: ·)
  | _ => none

def settingCount : Nat := 21

/-- The items of a well-formed request: at least one, as many as counted, each a known setting, none twice. -/
def wellFormedItems : List Byte → Option (List Item)
  | [] => none
  | n :: rest =>
    match readItems rest with
    | none => none
    | some items =>
      if n.toNat = items.length ∧ items ≠ [] ∧ items.all (fun i => decide (i.1 < settingCount))
          ∧ (items.map (·.1)).Nodup then some items
      else none

/-- Step 1: an enumeration value is one of its values (R202, R190). -/
def knownValue (i : Item) : Bool :=
  match i.1 with
  | 18 => decide (i.2 ≤ 1)
  | 19 => decide (i.2 < 64)
  | 20 => i.2 == 1 || i.2 == 2
  | _ => true

/-- Step 2: a timing value is clamped into its range (R3, R202); 0 turns silence detection off (R192). -/
def clampItem (i : Item) : Item :=
  let v := match i.1 with
    | 0 | 3 => clamp 12 192 i.2
    | 1 | 4 => clamp 1000 50000 i.2
    | 2 | 5 => clamp 10 500 i.2
    | 6 => if i.2 = 0 then 0 else clamp 100 10000 i.2
    | 7 => clamp 500 30000 i.2
    | 8 => clamp 500 10000 i.2
    | 9 => clamp 0 60000 i.2
    | 18 | 19 | 20 => i.2
    | _ => clamp 1 255 i.2
  (i.1, v)

/-- The line an item names. -/
def itemLine (i : Item) : Option Line :=
  match i.1 with
  | 0 | 1 | 2 => some .s
  | 3 | 4 | 5 => some .c
  | _ => none

/-- An item applied to a line's three settings, where it names that line. -/
def applyLineItem (l : Line) (ls : LineSettings) (i : Item) : LineSettings :=
  if itemLine i = some l then
    match i.1 with
    | 0 | 3 => { ls with divisor := i.2 }
    | 1 | 4 => { ls with period := i.2 }
    | _ => { ls with respUs := i.2 }
  else ls

/-- An item applied to the settings that belong to no line. -/
def applyItem (w : Settings) (i : Item) : Settings :=
  match i.1 with
  | 6 => { w with hostTimeoutMs := i.2 }
  | 7 => { w with claimWindowMs := i.2 }
  | 8 => { w with soundMs := i.2 }
  | 9 => { w with restMs := i.2 }
  | 10 | 11 | 12 | 13 | 14 | 15 | 16 | 17 => { w with qualifyMs := w.qualifyMs.set (i.1 - 10) i.2 }
  | 18 => { w with plugUsed := i.2 == 1 }
  | 19 => { w with mask := BitVec.ofNat 6 i.2 }
  | 20 => { w with startMode := if i.2 = 2 then .run else .basic }
  | _ => w

/-- Whether a line is named by an item. -/
def namesLine (l : Line) (items : List Item) : Bool := items.any (fun i => itemLine i == some l)

/-- The settings of a line that the request asks for: what it does not name stands at its accepted value. -/
def requestedLine (l : Line) (items : List Item) (s : State) : LineSettings :=
  items.foldl (applyLineItem l) (comingSettings (s.lines.get l))

/-- Step 3: the next schedule's cost under the requested settings fits the requested P (R19, R23, R202). -/
def lineFits (l : Line) (items : List Item) (s : State) : Bool :=
  let ls := requestedLine l items s
  !namesLine l items || decide (scheduleCost s ls (s.lines.get l).next ≤ ls.period)

/-- The accepted settings of a named line: in the working settings, and awaiting its next cycle (R18, R202). -/
def acceptLine (l : Line) (items : List Item) (s : State) : State :=
  if namesLine l items then
    let ls := requestedLine l items s
    let s := updLine l (fun e => { e with awaiting := some ls }) s
    { s with store := { s.store with
        working := { s.store.working with line := s.store.working.line.set l ls } } }
  else s

/-- Setting plug_used (R37). -/
def applyPlugUsed (items : List Item) (s : State) : State :=
  match items.find? (fun i => i.1 == 18) with
  | none => s
  | some i =>
    if i.2 = 0 then plugRise s
    else if (pointAt s 0).value = 0 then plugFall s
    else s

/-- An accepted request's effects (R202, R192; log entry 38). -/
def applySettings (items : List Item) (s : State) : State :=
  let s := { s with store := { s.store with working := items.foldl applyItem s.store.working } }
  let s := acceptLine .c items (acceptLine .s items s)
  applyPlugUsed items (restartSilence s)

def itemBytes (i : Item) : List Byte := byteOf i.1 :: be16 i.2

/-- SETTINGS_SET (R202). -/
def settingsSet (tag : Byte) (payload : List Byte) (s : State) : State :=
  match wellFormedItems payload with
  | none => replyBytes 5 tag .badArg [] s
  | some items =>
    if !items.all knownValue then replyBytes 5 tag .badArg [] s
    else
      let items := items.map clampItem
      if lineFits .s items s && lineFits .c items s then
        settleChange (replyBytes 5 tag .ok (byteOf items.length :: items.flatMap itemBytes)
          (applySettings items s))
      else replyBytes 5 tag .budget [] s

/-! ### SETTINGS_GET (R203, R211) -/

def lineValues (ls : LineSettings) : List Nat := [ls.divisor, ls.period, ls.respUs]

/-- Every setting in setting-code order. -/
def settingValues (w : Settings) : List Nat :=
  lineValues w.line.s ++ lineValues w.line.c
    ++ [w.hostTimeoutMs, w.claimWindowMs, w.soundMs, w.restMs] ++ w.qualifyMs
    ++ [w.plugUsed.toNat, w.mask.toNat, (modeCode w.startMode).toNat]

def lineReport (e : LineEngine) : List Byte :=
  (lineValues e.inForce).flatMap be16 ++ [bit e.awaiting.isSome]
    ++ ((e.awaiting.map lineValues).getD [0, 0, 0]).flatMap be16

def settingsGet (payload : List Byte) (s : State) : Status × List Byte :=
  match payload with
  | [] => (.ok, (settingValues s.store.working).flatMap be16 ++ lineReport s.lines.s ++ lineReport s.lines.c)
  | _ => (.badArg, [])

/-! ### STORE_SAVE and the end of its write (R204, R205) -/

def storeSave (tag : Byte) (payload : List Byte) (s : State) : State :=
  match payload with
  | [] =>
    if s.store.save.isSome then replyBytes 7 tag .busy [] s
    else { s with store := { s.store with save := some ⟨⟨s.store.working, s.profiles⟩, tag⟩ } }
  | _ => replyBytes 7 tag .badArg [] s

/-- The write ends: verified, or failed (R205). Without a save in progress there is no write to end. -/
def storeWriteEnd (verified : Bool) (s : State) : State :=
  match s.store.save with
  | none => s
  | some v =>
    if verified then
      replyBytes 7 v.tag .ok []
        { s with store := { s.store with image := some v.snapshot, invalid := false, save := none } }
    else
      replyBytes 7 v.tag .storeFailed []
        { s with store := { s.store with image := none, invalid := true, save := none } }

def settingsSetRequest (tag : Byte) (payload : List Byte) (s : State) : State :=
  takeRequest 5 tag (settingsSet tag payload) s

def settingsGetRequest (tag : Byte) (payload : List Byte) (s : State) : State :=
  quickReply 6 tag (settingsGet payload) s

def storeSaveRequest (tag : Byte) (payload : List Byte) (s : State) : State :=
  takeRequest 7 tag (storeSave tag payload) s

/-! ### The meanings of the rows -/

def execSettingsSet (tag : Byte) (payload : List Byte) (s : State) : Host.Outcome State Fault Refusal :=
  .next (settingsSetRequest tag payload s)

def execSettingsGet (tag : Byte) (payload : List Byte) (s : State) : Host.Outcome State Fault Refusal :=
  .next (settingsGetRequest tag payload s)

def execStoreSave (tag : Byte) (payload : List Byte) (s : State) : Host.Outcome State Fault Refusal :=
  .next (storeSaveRequest tag payload s)

def execStoreWriteEnd (verified : Bool) (s : State) : Host.Outcome State Fault Refusal :=
  .next (unlessHeld (storeWriteEnd verified) s)

end Sys2Proof.Machine
end

