-- ==== Sys2Proof/Machine/StationRequests.lean ====
section
/-! DEFINITION. The link engines' requests (R38 to R40), RAW_SAMPLES (R201) and RAW_WRITE (R97). -/

namespace Sys2Proof.Machine

open Sys2Proof

/-! ### STATION_LIST (R39, R211) -/

def identityBytes : Option Identity → List Byte
  | none => be16 0 ++ be32 0 ++ [0, 0]
  | some i => be16 i.typeCode ++ be32 i.serial.toNat ++ [byteOf i.inputs, byteOf i.outputs]

/-- One entry of 21 bytes. Without a pending transfer the attempts byte, for which R211 gives no value, is sent as 0
(log entry 20). -/
def stationEntry (s : State) (k : Stn) : List Byte :=
  let r := s.stations.get k
  [byteOf (addressOf k), stationStateCode r.state, refusalCode r.refusal, lastCauseCode r.lastCause,
   bit r.identity.isSome]
    ++ identityBytes r.identity ++ profileRefBytes r.profile
    ++ [byteOf r.misses, missReasonCode r.lastMiss, byteOf r.recovery, bit r.transfer.isSome,
        byteOf ((r.transfer.map (·.attempts)).getD 0)]

/-- The cost of the active schedule: the slots of the running cycle (R17; log entry 35). -/
def activeCost (e : LineEngine) : Nat := (e.plan.map (·.length)).sum

def stationList (payload : List Byte) (s : State) : Status × List Byte :=
  match payload with
  | [b] =>
    match lineOfByte b with
    | none => (.badArg, [])
    | some l =>
      let e := s.lines.get l
      (.ok, [lineCode l] ++ be16 e.inForce.period ++ be16 (activeCost e)
        ++ be16 (scheduleCost s (comingSettings e) e.next)
        ++ be16 ((e.awaiting.map (·.period)).getD 0)
        ++ [byteOf (lineStations l).length] ++ (lineStations l).flatMap (stationEntry s))
  | _ => (.badArg, [])

/-! ### STATION_RESTART (R38) -/

def stationRestart (tag : Byte) (payload : List Byte) (s : State) : State :=
  match stationPayload payload with
  | none => replyBytes 33 tag .badArg [] s
  | some k =>
    let s := leaveUnlessAbsent .restart (updStation k (fun r => { r with recovery := 0 }) s) k
    settleChange (replyBytes 33 tag .ok [] s)

/-! ### PARAM_READ and PARAM_WRITE (R40) -/

/-- What a parameter request names: the station, the address and the data. -/
structure ParamRequest where
  stn : Stn
  paramAddr : Nat
  count : Nat
  data : List Byte
  deriving DecidableEq, Repr

def readParamRequest (kind : TransferKind) : List Byte → Option ParamRequest
  | l :: a :: p1 :: p0 :: c :: data =>
    match stationOperand l a with
    | none => none
    | some k =>
      let wanted := match kind with
        | .read => 0
        | .write => c.toNat
      if 1 ≤ c.toNat ∧ c.toNat ≤ 32 ∧ data.length = wanted then some ⟨k, u16 p1 p0, c.toNat, data⟩ else none
  | _ => none

/-- The transfer is accepted, or refused at the outset (R40). -/
def paramStart (kind : TransferKind) (tag : Byte) (payload : List Byte) (s : State) : State :=
  let code := transferCode kind
  match readParamRequest kind payload with
  | none => replyBytes code tag .badArg [] s
  | some q =>
    if s.hub.change.isSome then replyBytes code tag .busy [] s
    else if !isOnline (stateOf s q.stn) then replyBytes code tag .notOnline [] s
    else if (s.stations.get q.stn).transfer.isSome then replyBytes code tag .busy [] s
    else updStation q.stn (fun r => { r with
      transfer := some ⟨kind, q.paramAddr, q.count, q.data, tag, 0⟩ }) s

/-! ### RAW_SAMPLES and RAW_WRITE (R97, R201) -/

def rawSamples (payload : List Byte) (s : State) : Status × List Byte :=
  match stationPayload payload with
  | none => (.badArg, [])
  | some k =>
    if s.hub.mode != .commission then (.mode, [])
    else
      match s.raw.get k with
      | none => (.notOnline, [])
      | some r =>
        let o := outOf s k
        (.ok, [stationStateCode (stateOf s k)] ++ identityBytes (s.stations.get k).identity
          ++ [bit r.samples.isSome, bit r.outputsSafe, byteOf r.age, o.lastAssigned.zeroExtend 8,
              o.lastAck.zeroExtend 8, o.lastEcho.zeroExtend 8]
          ++ (r.samples.getD []).flatMap (fun w => be16 w.toNat))

/-- Room for a RAW_WRITE, its FENCE included (R86, R97). -/
def rawRoom (j : Nat) (fence : Bool) (o : OutState) : Bool :=
  decide (o.list.length + (if combines j o.list then 0 else 1) + fence.toNat ≤ ordinaryRoom)
    || (combines j o.list && !fence)

/-- What a RAW_WRITE names. -/
structure RawRequest where
  stn : Stn
  output : Nat
  value : Word
  fence : Bool
  deriving DecidableEq, Repr

def readRawRequest : List Byte → Option RawRequest
  | [l, a, j, v1, v0, f] =>
    match stationOperand l a, boolOfByte f with
    | some k, some fence => some ⟨k, j.toNat, BitVec.ofNat 16 (u16 v1 v0), fence⟩
    | _, _ => none
  | _ => none

def reportedOutputs (s : State) (k : Stn) : Nat := ((s.stations.get k).identity.map (·.outputs)).getD 0

def rawWrite (tag : Byte) (payload : List Byte) (s : State) : State :=
  match readRawRequest payload with
  | none => replyBytes 37 tag .badArg [] s
  | some q =>
    if s.hub.mode != .commission then replyBytes 37 tag .mode [] s
    else if !isScanned (stateOf s q.stn) then replyBytes 37 tag .notOnline [] s
    else if reportedOutputs s q.stn ≤ q.output then replyBytes 37 tag .badArg [] s
    else if !rawRoom q.output q.fence (outOf s q.stn) then replyBytes 37 tag .queueFull [] s
    else
      let outcome := writeOutcome q.output (outOf s q.stn)
      let s := enterWrite q.stn q.output q.value s
      let s := if q.fence then updOut q.stn (putEntry .fence) s else s
      replyBytes 37 tag .ok [outcome, byteOf (outOf s q.stn).list.length] s

def stationListRequest (tag : Byte) (payload : List Byte) (s : State) : State :=
  quickReply 32 tag (stationList payload) s

def stationRestartRequest (tag : Byte) (payload : List Byte) (s : State) : State :=
  takeRequest 33 tag (stationRestart tag payload) s

def paramReadRequest (tag : Byte) (payload : List Byte) (s : State) : State :=
  takeRequest 34 tag (paramStart .read tag payload) s

def paramWriteRequest (tag : Byte) (payload : List Byte) (s : State) : State :=
  takeRequest 35 tag (paramStart .write tag payload) s

def rawSamplesRequest (tag : Byte) (payload : List Byte) (s : State) : State :=
  quickReply 36 tag (rawSamples payload) s

def rawWriteRequest (tag : Byte) (payload : List Byte) (s : State) : State :=
  takeRequest 37 tag (rawWrite tag payload) s

/-! ### The meanings of the rows -/

def execStationList (tag : Byte) (payload : List Byte) (s : State) : Host.Outcome State Fault Refusal :=
  .next (stationListRequest tag payload s)

def execStationRestart (tag : Byte) (payload : List Byte) (s : State) : Host.Outcome State Fault Refusal :=
  .next (stationRestartRequest tag payload s)

def execParamRead (tag : Byte) (payload : List Byte) (s : State) : Host.Outcome State Fault Refusal :=
  .next (paramReadRequest tag payload s)

def execParamWrite (tag : Byte) (payload : List Byte) (s : State) : Host.Outcome State Fault Refusal :=
  .next (paramWriteRequest tag payload s)

def execRawSamples (tag : Byte) (payload : List Byte) (s : State) : Host.Outcome State Fault Refusal :=
  .next (rawSamplesRequest tag payload s)

def execRawWrite (tag : Byte) (payload : List Byte) (s : State) : Host.Outcome State Fault Refusal :=
  .next (rawWriteRequest tag payload s)

end Sys2Proof.Machine
end

