-- ==== Sys2Proof/Machine/PortEvents.lean ====
section
/-! DEFINITION. The host port's events: completed frames (R183, R184), bad frames and gaps (R182), messages on
their way out byte by byte (R179, R188, R189, R191), and host silence (R193). -/

namespace Sys2Proof.Machine

open Sys2Proof

/-! ### Completed frames -/

/-- The owner of each request code (R187). -/
def requestHandler (code tag : Byte) (payload : List Byte) : Option (State → State) :=
  match code.toNat with
  | 1 => some (hubInfoRequest tag payload)
  | 2 => some (hubStatusRequest tag payload)
  | 3 => some (hubResetRequest tag payload)
  | 4 => some (modeSetRequest tag payload)
  | 5 => some (settingsSetRequest tag payload)
  | 6 => some (settingsGetRequest tag payload)
  | 7 => some (storeSaveRequest tag payload)
  | 16 => some (profilePutRequest tag payload)
  | 17 => some (profileGetRequest tag payload)
  | 18 => some (profileDropRequest tag payload)
  | 19 => some (profileListRequest tag payload)
  | 32 => some (stationListRequest tag payload)
  | 33 => some (stationRestartRequest tag payload)
  | 34 => some (paramReadRequest tag payload)
  | 35 => some (paramWriteRequest tag payload)
  | 36 => some (rawSamplesRequest tag payload)
  | 37 => some (rawWriteRequest tag payload)
  | 48 => some (pointsReadRequest tag payload)
  | 49 => some (changesClearRequest tag payload)
  | 50 => some (pointNotifyRequest tag payload)
  | 51 => some (pointWriteRequest tag payload)
  | 52 => some (pointFenceRequest tag payload)
  | 64 => some (groupStatusRequest tag payload)
  | 65 => some (claimReadRequest tag payload)
  | 66 => some (claimSetRequest tag payload)
  | 67 => some (claimReleaseRequest tag payload)
  | 68 => some (operateRequest tag payload)
  | 69 => some (opStopRequest tag payload)
  | 70 => some (resultTakeRequest tag payload)
  | 71 => some (tripClearRequest tag payload)
  | 80 => some (alertStatusRequest tag payload)
  | 81 => some (alertAckRequest tag payload)
  | _ => none

/-- The bad-code check of R184: the request restarts the silence timer and is answered uncounted. -/
def badCode (code tag : Byte) (s : State) : State :=
  if portClosed s then s
  else uncountedReply code tag .badCode (hearRequest s)

/-- A request frame is taken (R183, R184). -/
def takeCode (code tag : Byte) (payload : List Byte) (s : State) : State :=
  match requestHandler code tag payload with
  | some handle => handle s
  | none => badCode code tag s

def countWrongClass (s : State) : State :=
  if portClosed s then s
  else updPort (fun p => { p with
    framer := [], counters := { p.counters with wrongClass := satSucc counterTop p.counters.wrongClass } }) s

/-- A completed frame: class REQUEST is exactly 1 (R183, R210). -/
def takeFrame (cls code tag : Byte) (payload : List Byte) (s : State) : State :=
  if cls = 1 then takeCode code tag payload s else countWrongClass s

/-! ### Bad frames (R182) -/

def countBad (why : BadFrame) (c : PortCounters) : PortCounters :=
  match why with
  | .badCheck => { c with badCheck := satSucc counterTop c.badCheck }
  | .badLength => { c with badLength := satSucc counterTop c.badLength }
  | .broken => { c with breaks := satSucc counterTop c.breaks }

/-- One event of the framer; none while the port takes no frame (R191, R206). -/
def framerEvent (s : State) (e : FramerEvent) : State :=
  if portClosed s then s
  else
    match e with
    | .frame cls code tag payload => takeFrame cls code tag payload s
    | .bad why => updPort (fun p => { p with counters := countBad why p.counters }) s

/-- The framer's events in order, and what it is left with. -/
def framerEvents (r : List FramerEvent × List HostByte) (s : State) : State :=
  let s := r.1.foldl framerEvent s
  updPort (fun p => { p with framer := if portClosed s then [] else r.2 }) s

/-- SPI bytes have no stop bit (R179): only a UART character can show a framing error. -/
def asSeen (s : State) (b : HostByte) : HostByte :=
  match s.port.kind with
  | .uart => b
  | .spi => { b with stopOk := true }

def takeBytes (bytes : List HostByte) (s : State) : State :=
  if portClosed s then s else framerEvents (arriveBytes s.port.framer (bytes.map (asSeen s))) s

def takeGap (before : List HostByte) (after : HostByte) (s : State) : State :=
  if portClosed s then s
  else framerEvents (arriveGap s.port.framer (before.map (asSeen s)) (asSeen s after)) s

/-! ### Messages on their way out (R188, R189) -/

/-- The port sends: not while the RESET pin is low (R206), nor behind the reply of a HUB_RESET, whose followers are
lost (R191). -/
def portSends (s : State) : Bool := !s.held && !hubResetReplySent s

def whileSending (f : HostPort → HostPort) (s : State) : State := if portSends s then updPort f s else s

/-- The first byte of a message is sent: a notice copies OVERFLOWED into its header and clears it (R189). -/
def beginMessage (m : Message) (p : HostPort) : Message × HostPort :=
  match m.sort with
  | .notice =>
    if m.begun then (m, p)
    else ({ m with begun := true, overflowBit := p.overflowed }, { p with overflowed := false, sent := 1 })
  | _ => (m, p)

def beginHead (p : HostPort) : HostPort :=
  match p.fifo with
  | [] => p
  | m :: rest =>
    let r := beginMessage m p
    { r.2 with fifo := r.1 :: rest }

/-- The table after a message has left: a counted reply frees its request (R188). -/
def freeTag (m : Message) (table : List Outstanding) : List Outstanding :=
  match m.sort with
  | .countedReply => table.filter (fun o => o.tag != m.tag)
  | _ => table

/-- The last byte of the head message is sent (R188); a notice not yet begun begins first (log entry 30). -/
def sendHead (p : HostPort) : HostPort :=
  let p := beginHead p
  match p.fifo with
  | [] => p
  | m :: rest => { p with fifo := rest, sent := 0, table := freeTag m p.table, lastFrame := messageBytes m }

/-- One byte of the head message is sent (R179, R188): its first begins the message, its last ends it. -/
def sendByte (p : HostPort) : HostPort :=
  match p.fifo with
  | [] => p
  | m :: _ =>
    if p.sent + 1 < (messageBytes m).length then { beginHead p with sent := p.sent + 1 } else sendHead p

/-- What the port does of itself while no command waits: in UART it sends its next byte, back to back; in SPI it
waits for the host's clock (R178, R179; log entry 1). -/
def idlePort (s : State) : State :=
  match s.port.kind with
  | .uart => whileSending sendByte s
  | .spi => s

/-! ### The port's pins (R178, R179) -/

/-- ATTN: low in SPI while the FIFO holds an unsent byte, high otherwise and in UART (R178, R179, R206). -/
def attn (s : State) : Bool :=
  match s.port.kind with
  | .uart => true
  | .spi => s.held || s.port.fifo.isEmpty

/-- The byte that the port sends next: that of the head message which follows those already sent. With none, the
UART's line rests at mark and an SPI transaction shifts out the filler (R179, R188, R209). -/
def nextOutbound (s : State) : Option Byte :=
  match (if portSends s then s.port.fifo else []), s.port.kind with
  | m :: _, _ => (messageBytes m)[s.port.sent]?
  | [], .uart => none
  | [], .spi => some fillerByte

/-- The ten levels of HTX over the character that a UART sends next: 8N1, as on a field line; none while the line
rests at mark (R178). -/
def uartCharacter (s : State) : List Bool := ((nextOutbound s).map wireBits).getD []

/-- A byte's bits in the order of an SPI port: most significant first (R179). -/
def bitsOf (b : Byte) : List Bool :=
  [b.getLsbD 7, b.getLsbD 6, b.getLsbD 5, b.getLsbD 4, b.getLsbD 3, b.getLsbD 2, b.getLsbD 1, b.getLsbD 0]

def byteOfBits (bits : List Bool) : Byte := byteOf (bits.foldl (fun n b => 2 * n + b.toNat) 0)

/-- An SPI transaction, from the fall of HCS to its rise, with the level of HRX at each rising edge of HSCK: the
state after it and the levels of HTX (R179). The outbound byte is chosen as its first clock begins. After eight
clocks it has been sent and the inbound byte is taken; where HCS rises part-way through a byte neither happens, so
the outbound byte stays to be sent whole. On the eighth clock the outbound byte counts as sent, with what that frees,
before the inbound byte is taken: R179 gives the two no order (log entry 32). -/
def spiTransaction : List Bool → State → State × List Bool
  | b7 :: b6 :: b5 :: b4 :: b3 :: b2 :: b1 :: b0 :: more, s =>
    let byte := byteOfBits [b7, b6, b5, b4, b3, b2, b1, b0]
    let r := spiTransaction more (takeBytes [⟨byte, true⟩] (whileSending sendByte s))
    (r.1, bitsOf ((nextOutbound s).getD fillerByte) ++ r.2)
  | part, s => (s, (bitsOf ((nextOutbound s).getD fillerByte)).take part.length)

/-! ### Host silence (R193) -/

def hostSilence (s : State) : State :=
  match s.port.silenceTimer with
  | none => s
  | some t =>
    let s := updPort (fun p => { p with silent := true, silenceTimer := none }) (reachTime t s)
    hubHostSilent (hostSilent s)

/-! ### The meanings of the rows -/

/-- UNKNOWN_REQUEST: a request frame whose code the table of R187 does not list. -/
def execUnknownRequest (code tag : Byte) (payload : List Byte) (s : State) : Host.Outcome State Fault Refusal :=
  .next (takeCode code tag payload s)

/-- BAD_HOST_FRAME: bytes as they arrive (R182). -/
def execBadHostFrame (bytes : List HostByte) (s : State) : Host.Outcome State Fault Refusal :=
  .next (takeBytes bytes s)

def execHostByteGap (before : List HostByte) (after : HostByte) (s : State) :
    Host.Outcome State Fault Refusal :=
  .next (takeGap before after s)

def execWrongClassFrame (cls code tag : Byte) (payload : List Byte) (s : State) :
    Host.Outcome State Fault Refusal :=
  .next (takeFrame cls code tag payload s)

def execNoticeSendBegin (s : State) : Host.Outcome State Fault Refusal :=
  .next (whileSending beginHead s)

def execMessageSent (s : State) : Host.Outcome State Fault Refusal :=
  .next (whileSending sendHead s)

def execHostSilenceEvent (s : State) : Host.Outcome State Fault Refusal :=
  .next (unlessHeld hostSilence s)

end Sys2Proof.Machine
end

