-- ==== Sys2Proof/Machine/Timers.lean ====
section
/-! DEFINITION. The expiries of lamps (R101, R168), claim marks (R125), operations (R148) and the alert (R175).
An expiry whose timer does not run does nothing (log entry 2). -/

namespace Sys2Proof.Machine

open Sys2Proof

/-- A lamp line's half-period ends (R101). -/
def lampHalfPeriod (k : Nat) (s : State) : State :=
  match (lampAt s k).timer with
  | none => s
  | some t =>
    let s := reachTime t s
    setLampLine k (lampExpire s.now (lampAt s k)) s

/-- A cab lamp's half-period ends (R168). -/
def cabLampHalfPeriod (k : Nat) (s : State) : State :=
  match (cabLamp s k).timer with
  | none => s
  | some t =>
    let s := reachTime t s
    setCabLamp k (lampExpire s.now (cabLamp s k)) s

/-- A claim mark expires (R125). -/
def markExpiry (g : Group) (src : Source) (s : State) : State :=
  match (s.owners.get g).marks.get src with
  | none => s
  | some m => setMark g src none (reachTime m.expiry s)

/-- An operation's deadline is reached (R148). -/
def deadlineReached (g : Group) (s : State) : State :=
  match s.ops.get g with
  | none => s
  | some r => endOperation g (deadlineEnding r) (reachTime r.deadline s)

/-- RESTING with a fresh rest timer. -/
def startRest (s : State) : State :=
  updAlert (fun a => { a with
    state := .resting, soundTimer := none, restTimer := some (s.now + s.store.working.restMs) }) s

/-- The sound timer expires (R175). -/
def soundExpiry (s : State) : State :=
  match s.cab.alert.soundTimer with
  | none => s
  | some t =>
    let s := updAlert (fun a => { a with count := satSucc 255 a.count }) (reachTime t s)
    if 0 < s.store.working.restMs then mirror (startRest s) else startSound s

/-- The rest timer expires (R175). -/
def restExpiry (s : State) : State :=
  match s.cab.alert.restTimer with
  | none => s
  | some t => mirror (startSound (reachTime t s))

/-! ### The meanings of the rows -/

def execLampHalfPeriodExpiry (lamp : Fin 6) (s : State) : Host.Outcome State Fault Refusal :=
  .next (unlessHeld (lampHalfPeriod lamp.val) s)

def execCabLampHalfPeriodExpiry (output : Fin 12) (s : State) : Host.Outcome State Fault Refusal :=
  .next (unlessHeld (cabLampHalfPeriod output.val) s)

def execClaimMarkExpiry (g : Group) (src : Source) (s : State) : Host.Outcome State Fault Refusal :=
  .next (unlessHeld (markExpiry g src) s)

def execOperationDeadline (g : Group) (s : State) : Host.Outcome State Fault Refusal :=
  .next (unlessHeld (deadlineReached g) s)

def execSoundTimerExpiry (s : State) : Host.Outcome State Fault Refusal :=
  .next (unlessHeld soundExpiry s)

def execRestTimerExpiry (s : State) : Host.Outcome State Fault Refusal :=
  .next (unlessHeld restExpiry s)

end Sys2Proof.Machine
end

