-- ==== Sys2Proof/Machine/Dispatch.lean ====
section
/-! DEFINITION. One arm per command, in the order of spec/opcode_table.json. -/

namespace Sys2Proof.Machine

open Sys2Proof

def exec (i : Instr) (s : State) : Host.Outcome State Fault Refusal :=
  match i with
  | .powerOnReset portsel baud lin => Sys2Proof.Machine.execPowerOnReset portsel baud lin s
  | .resetPinFall => Sys2Proof.Machine.execResetPinFall s
  | .resetPinRelease portsel baud lin => Sys2Proof.Machine.execResetPinRelease portsel baud lin s
  | .hubInfo tag payload => Sys2Proof.Machine.execHubInfo tag payload s
  | .hubStatus tag payload => Sys2Proof.Machine.execHubStatus tag payload s
  | .hubReset tag payload => Sys2Proof.Machine.execHubReset tag payload s
  | .hubResetTakesPlace portsel baud lin => Sys2Proof.Machine.execHubResetTakesPlace portsel baud lin s
  | .modeSet tag payload => Sys2Proof.Machine.execModeSet tag payload s
  | .modeTeardown => Sys2Proof.Machine.execModeTeardown s
  | .settingsSet tag payload => Sys2Proof.Machine.execSettingsSet tag payload s
  | .settingsGet tag payload => Sys2Proof.Machine.execSettingsGet tag payload s
  | .storeSave tag payload => Sys2Proof.Machine.execStoreSave tag payload s
  | .storeWriteEnd verified => Sys2Proof.Machine.execStoreWriteEnd verified s
  | .profilePut tag payload => Sys2Proof.Machine.execProfilePut tag payload s
  | .profileGet tag payload => Sys2Proof.Machine.execProfileGet tag payload s
  | .profileDrop tag payload => Sys2Proof.Machine.execProfileDrop tag payload s
  | .profileList tag payload => Sys2Proof.Machine.execProfileList tag payload s
  | .stationList tag payload => Sys2Proof.Machine.execStationList tag payload s
  | .stationRestart tag payload => Sys2Proof.Machine.execStationRestart tag payload s
  | .paramRead tag payload => Sys2Proof.Machine.execParamRead tag payload s
  | .paramWrite tag payload => Sys2Proof.Machine.execParamWrite tag payload s
  | .rawSamples tag payload => Sys2Proof.Machine.execRawSamples tag payload s
  | .rawWrite tag payload => Sys2Proof.Machine.execRawWrite tag payload s
  | .pointsRead tag payload => Sys2Proof.Machine.execPointsRead tag payload s
  | .changesClear tag payload => Sys2Proof.Machine.execChangesClear tag payload s
  | .pointNotify tag payload => Sys2Proof.Machine.execPointNotify tag payload s
  | .pointWrite tag payload => Sys2Proof.Machine.execPointWrite tag payload s
  | .pointFence tag payload => Sys2Proof.Machine.execPointFence tag payload s
  | .groupStatus tag payload => Sys2Proof.Machine.execGroupStatus tag payload s
  | .claimRead req => Sys2Proof.Machine.execClaimRead req s
  | .claimSet req => Sys2Proof.Machine.execClaimSet req s
  | .claimRelease req => Sys2Proof.Machine.execClaimRelease req s
  | .operate req => Sys2Proof.Machine.execOperate req s
  | .opStop req => Sys2Proof.Machine.execOpStop req s
  | .resultTake tag payload => Sys2Proof.Machine.execResultTake tag payload s
  | .tripClear req => Sys2Proof.Machine.execTripClear req s
  | .alertStatus tag payload => Sys2Proof.Machine.execAlertStatus tag payload s
  | .alertAck tag payload => Sys2Proof.Machine.execAlertAck tag payload s
  | .unknownRequest code tag payload => Sys2Proof.Machine.execUnknownRequest code tag payload s
  | .badHostFrame bytes => Sys2Proof.Machine.execBadHostFrame bytes s
  | .hostByteGap before after => Sys2Proof.Machine.execHostByteGap before after s
  | .wrongClassFrame cls code tag payload => Sys2Proof.Machine.execWrongClassFrame cls code tag payload s
  | .noticeSendBegin => Sys2Proof.Machine.execNoticeSendBegin s
  | .messageSent => Sys2Proof.Machine.execMessageSent s
  | .hostSilenceEvent => Sys2Proof.Machine.execHostSilenceEvent s
  | .cycleStart line => Sys2Proof.Machine.execCycleStart line s
  | .stationSlotStart stn => Sys2Proof.Machine.execStationSlotStart stn s
  | .probeSlotStart line => Sys2Proof.Machine.execProbeSlotStart line s
  | .paramSlotStart line => Sys2Proof.Machine.execParamSlotStart line s
  | .scanAnswerGood line rx => Sys2Proof.Machine.execScanAnswerGood line rx s
  | .scanMiss line rx => Sys2Proof.Machine.execScanMiss line rx s
  | .rollAnswerGood line rx => Sys2Proof.Machine.execRollAnswerGood line rx s
  | .probeMiss line rx => Sys2Proof.Machine.execProbeMiss line rx s
  | .paramAnswerGood line rx => Sys2Proof.Machine.execParamAnswerGood line rx s
  | .paramMiss line rx => Sys2Proof.Machine.execParamMiss line rx s
  | .holdoffExpiry stn => Sys2Proof.Machine.execHoldoffExpiry stn s
  | .localInputFlip pin level => Sys2Proof.Machine.execLocalInputFlip pin level s
  | .lampHalfPeriodExpiry lamp => Sys2Proof.Machine.execLampHalfPeriodExpiry lamp s
  | .cabLampHalfPeriodExpiry output => Sys2Proof.Machine.execCabLampHalfPeriodExpiry output s
  | .claimMarkExpiry g src => Sys2Proof.Machine.execClaimMarkExpiry g src s
  | .operationDeadline g => Sys2Proof.Machine.execOperationDeadline g s
  | .soundTimerExpiry => Sys2Proof.Machine.execSoundTimerExpiry s
  | .restTimerExpiry => Sys2Proof.Machine.execRestTimerExpiry s
  | .localInputSample lin => Sys2Proof.Machine.execLocalInputSample lin s

end Sys2Proof.Machine
end

