-- ==== Sys2Proof/Safety.lean ====
section
/-! DEFINITION. What a safe state is, in the terms of the claims: each predicate is one promise of the manual
about the state between two commands. -/

namespace Sys2Proof.Safety

open Sys2Proof Sys2Proof.Machine

/-- A request with this tag passes the checks of R184 that its code does not decide, on a port that takes frames. -/
def Ready (s : State) (tag : Byte) : Prop :=
  portClosed s = false ∧ tagHeld tag s = false ∧ s.port.table.length < 8

/-- A group record whose permit is on is bound, known to be locked or unlocked at every corner, known to be landed
or not, and not tripped (R116). -/
def RecordSafe (r : GroupRec) : Prop :=
  r.permit = true →
    r.bound = true ∧ (r.lock = .allLocked ∨ r.lock = .allUnlocked) ∧ r.landed ≠ .unknown ∧ r.trip = false

/-- The permit pins match the records while the hub is not held in reset (R76, R117), and every record is safe. -/
def PermitSafe (s : State) : Prop :=
  (s.held = false → ∀ g, s.permitPins.get g = (s.groups.get g).permit) ∧ ∀ g, RecordSafe (s.groups.get g)

/-- Every claim mark carries its group's current generation (R125). -/
def MarksCurrent (s : State) : Prop :=
  ∀ g src m, (s.owners.get g).marks.get src = some m → m.generation = (s.owners.get g).generation

/-- The replies that accepted requests are still owed: one for each pending transfer, for the pending mode change
and for the save in progress (R41, R185, R198, R205). -/
def owedReplies (s : State) : Nat :=
  ((lineStations .s ++ lineStations .c).filter (fun k => (s.stations.get k).transfer.isSome)).length
    + s.hub.change.isSome.toNat + s.store.save.isSome.toNat

/-- The limits of the outstanding-request table and of the three sorts of the outbound FIFO (R184, R188). The
counted replies keep theirs because each of them, and each reply still owed, has an entry of its own in the
table, which holds no tag twice (R184, R185). -/
def PortWithinLimits (s : State) : Prop :=
  s.port.table.length ≤ 8 ∧ countSort .countedReply s.port.fifo ≤ 8 ∧ countSort .uncountedReply s.port.fifo ≤ 8 ∧
    countSort .notice s.port.fifo ≤ 32 ∧ (s.port.table.map (·.tag)).Nodup ∧
    countSort .countedReply s.port.fifo + owedReplies s ≤ s.port.table.length

/-- What R34, and with `unmapped` also R35, do besides the station record when station `k` leaves `s` for `t`: no
slot in the next schedule and a void one in progress; no pending list, batch or transfer, which is answered
LINK_LOST; its points STALE or UNMAPPED; its group without operation and permit, and with `unmapped` unbound, its
owner lapsed and its marks gone (R104, R135, R152). -/
def Departed (k : Stn) (unmapped : Bool) (s t : State) : Prop :=
  k ∉ (t.lines.get (lineOf k)).next ∧
  (∀ x, (t.lines.get (lineOf k)).slot = some x → x.stn = k → x.kind ≠ .probe → x.void = true) ∧
  (t.outputs.get k).list = [] ∧ (t.outputs.get k).inFlight = none ∧
  (unmapped = true →
    (t.outputs.get k).intended = [] ∧ t.staleLimits.get k = none ∧ t.raw.get k = none) ∧
  (t.stations.get k).transfer = none ∧
  (∀ x, (s.stations.get k).transfer = some x →
    (⟨.countedReply, transferCode x.kind, x.tag, [20], false, false⟩ : Message) ∈ t.port.fifo) ∧
  (∀ p i, profileOf s k = some p → p.base ≤ i → i < p.base + windowSize p → i < s.points.length →
    (pointAt t i).quality = if unmapped then .unmapped else .stale) ∧
  (∀ g, groupAt s k = some g →
    t.ops.get g = none ∧ t.permitPins.get g = false ∧
    (unmapped = true →
      t.groups.get g = ⟨false, none, [], none, .unknown, .unknown, .unknown, false, false, false⟩ ∧
      t.owners.get g = ⟨.none,
        if (s.owners.get g).owner = .none then (s.owners.get g).generation
          else (s.owners.get g).generation + 1, ⟨none, none⟩⟩))

/-- The image holds 256 points (R61). -/
def ImageWhole (s : State) : Prop := s.points.length = 256

/-- A REFUSED result stands in a CAB slot only (R157). -/
def RemoteSlotsSound (s : State) : Prop :=
  ∀ g q st, (s.results.get g).get .remote ≠ some (.refused q st)

/-- A profile table in ascending type-code order, none twice, of at most 12 (R43). -/
def TableSorted (ps : List Profile) : Prop :=
  ps.length ≤ 12 ∧ ps.Pairwise (fun p q => p.typeCode < q.typeCode)

/-- The table in use, the stored one and one being saved are sorted (R43, R204, R205). -/
def ProfilesSound (s : State) : Prop :=
  TableSorted s.profiles ∧ (∀ i, s.store.image = some i → TableSorted i.profiles)
    ∧ (∀ v, s.store.save = some v → TableSorted v.snapshot.profiles)

end Sys2Proof.Safety
end

