-- ==== Sys2Proof/WellFormed.lean ====
section
/-! DEFINITION. Which commands can reach the hub as what they say they are: the limits of a host frame (R180), the
codes that have no owner (R187), the class of a request (R209), and bytes that follow one another on a line. -/

namespace Sys2Proof

/-- The request codes of R187. -/
def requestCodes : List Nat :=
  [1, 2, 3, 4, 5, 6, 7, 16, 17, 18, 19, 32, 33, 34, 35, 36, 37, 48, 49, 50, 51, 52, 64, 65, 66, 67, 68, 69, 70,
   71, 80, 81]

/-- A host frame's payload is 0 to 1,024 bytes (R180). -/
def payloadFits (payload : List Byte) : Bool := decide (payload.length ≤ 1024)

/-- The start bits of a receiver's bytes come one after another (R2). -/
def apart : List RxByte → Bool
  | x :: y :: rest => decide (x.start < y.start) && apart (y :: rest)
  | _ => true

def GroupRequest.wellFormed : GroupRequest → Bool
  | .remote _ payload => payloadFits payload
  | .cab _ => true

def OpRequest.wellFormed : OpRequest → Bool
  | .remote _ payload => payloadFits payload
  | .cab _ _ => true

def Instr.wellFormed : Instr → Bool
  | .powerOnReset _ _ _ => true
  | .resetPinFall => true
  | .resetPinRelease _ _ _ => true
  | .hubInfo _ payload => payloadFits payload
  | .hubStatus _ payload => payloadFits payload
  | .hubReset _ payload => payloadFits payload
  | .hubResetTakesPlace _ _ _ => true
  | .modeSet _ payload => payloadFits payload
  | .modeTeardown => true
  | .settingsSet _ payload => payloadFits payload
  | .settingsGet _ payload => payloadFits payload
  | .storeSave _ payload => payloadFits payload
  | .storeWriteEnd _ => true
  | .profilePut _ payload => payloadFits payload
  | .profileGet _ payload => payloadFits payload
  | .profileDrop _ payload => payloadFits payload
  | .profileList _ payload => payloadFits payload
  | .stationList _ payload => payloadFits payload
  | .stationRestart _ payload => payloadFits payload
  | .paramRead _ payload => payloadFits payload
  | .paramWrite _ payload => payloadFits payload
  | .rawSamples _ payload => payloadFits payload
  | .rawWrite _ payload => payloadFits payload
  | .pointsRead _ payload => payloadFits payload
  | .changesClear _ payload => payloadFits payload
  | .pointNotify _ payload => payloadFits payload
  | .pointWrite _ payload => payloadFits payload
  | .pointFence _ payload => payloadFits payload
  | .groupStatus _ payload => payloadFits payload
  | .claimRead req => req.wellFormed
  | .claimSet req => req.wellFormed
  | .claimRelease req => req.wellFormed
  | .operate req => req.wellFormed
  | .opStop req => req.wellFormed
  | .resultTake _ payload => payloadFits payload
  | .tripClear req => req.wellFormed
  | .alertStatus _ payload => payloadFits payload
  | .alertAck _ payload => payloadFits payload
  | .unknownRequest code _ payload => !(requestCodes.contains code.toNat) && payloadFits payload
  | .badHostFrame bytes => !bytes.isEmpty
  | .hostByteGap _ _ => true
  | .wrongClassFrame cls _ _ payload => cls != 1 && payloadFits payload
  | .noticeSendBegin => true
  | .messageSent => true
  | .hostSilenceEvent => true
  | .cycleStart _ => true
  | .stationSlotStart _ => true
  | .probeSlotStart _ => true
  | .paramSlotStart _ => true
  | .scanAnswerGood _ rx => apart rx
  | .scanMiss _ rx => apart rx
  | .rollAnswerGood _ rx => apart rx
  | .probeMiss _ rx => apart rx
  | .paramAnswerGood _ rx => apart rx
  | .paramMiss _ rx => apart rx
  | .holdoffExpiry _ => true
  | .localInputFlip _ _ => true
  | .lampHalfPeriodExpiry _ => true
  | .cabLampHalfPeriodExpiry _ => true
  | .claimMarkExpiry _ _ => true
  | .operationDeadline _ => true
  | .soundTimerExpiry => true
  | .restTimerExpiry => true
  | .localInputSample _ => true

end Sys2Proof
end

