-- ==== Sys2Proof/Certificates/Slice0/Obligations.lean ====
section
/-! DEFINITION. The statements for the provers. `replyBytes code tag st body` appends the counted reply with that
status and body to the FIFO; `acceptRequest code tag s` is `s` with the silence timer restarted, the framer in
HUNT and the request in the table. -/

open Sys2Proof Sys2Proof.Machine Sys2Proof.Safety

/-! ### The queue, the step, and the whole hub -/

/-- The command at the front of the queue runs on the state that holds the rest; with none waiting, the hub idles
where the port has nothing to send or waits for the host's clock (the model's queue, log entry 1). -/
def Obligations.StepRunsFrontCommand : Prop :=
  (∀ (c : Instr) (rest : List Instr) (s : State),
    s.pending = c :: rest → step s = exec c { s with pending := rest }) ∧
  (∀ s : State, s.pending = [] → (s.held = true ∨ s.port.kind = .spi ∨ s.port.fifo = []) → step s = .next s)

/-- No command touches the queue of waiting commands (the model's queue, log entry 1). -/
def Obligations.CommandsLeaveQueueAlone : Prop :=
  ∀ (c : Instr) (s t : State), exec c s = .next t → t.pending = s.pending

/-- R206, R205: the fall of the RESET pin holds the hub, puts LOUT0 to LOUT7 at 0, stops both lines and cuts off a
write in progress. While the pin is low no command but its release and a power-on has an effect (the model's
reading of R206, log entry 24). -/
def Obligations.ResetPinHoldsHub : Prop :=
  (∀ s : State, s.held = false →
    ∃ t, exec .resetPinFall s = .next t ∧ t.held = true ∧ (∀ k, lout t k = false) ∧
      (∀ l, (t.lines.get l).running = false ∧ (t.lines.get l).slot = none) ∧
      t.store = { s.store with image := if s.store.save.isSome then none else s.store.image, save := none } ∧
      portClosed t = true ∧ attn t = true) ∧
  (∀ (c : Instr) (s : State), s.held = true →
    (∀ p b l, c ≠ .powerOnReset p b l) → (∀ p b l, c ≠ .resetPinRelease p b l) → exec c s = .next s)

/-- R206 with R24, R83, R102, R123, R161, R191, R196, R197 and R204: power-on, the release of the RESET pin and a
HUB_RESET taking place all leave the reset state, the last at the end of the 100 ms unless its reply has been sent
(the clock is log entry 3, the first cycle log entry 17). -/
def Obligations.ResetsReturnHub : Prop :=
  ∀ (portsel : Bool) (baud : BitVec 2) (lin : Byte) (s : State) (c : Instr),
    (c = .powerOnReset portsel baud lin ∨ (s.held = true ∧ c = .resetPinRelease portsel baud lin) ∨
      (s.held = false ∧ s.port.resetBy.isSome = true ∧ c = .hubResetTakesPlace portsel baud lin)) →
    ∀ (image : Option Stored) (w : Settings),
      image = (if s.store.save.isSome then none else s.store.image) →
      w = (image.map (·.settings)).getD Settings.factory →
      ∃ t, exec c s = .next t ∧
        t.store = ⟨w, image, image.isNone, none⟩ ∧
        t.profiles = (image.map (·.profiles)).getD [] ∧
        t.hub = ⟨w.startMode, none⟩ ∧
        (∀ l, (t.lines.get l).inForce = w.line.get l ∧ (t.lines.get l).awaiting = none ∧
          (t.lines.get l).active = [] ∧ (t.lines.get l).next = [] ∧ (t.lines.get l).slot = none ∧
          (t.lines.get l).running = true ∧
          (t.lines.get l).plan = [⟨.probe, 0, probeSlotCost (w.line.get l)⟩,
            ⟨.param, probeSlotCost (w.line.get l), paramSlotCost (w.line.get l)⟩]) ∧
        (t.lines.s.probePtr = 4 ∧ t.lines.s.paramPtr = 4 ∧ t.lines.c.probePtr = 1 ∧ t.lines.c.paramPtr = 1) ∧
        (t.lines.s.suspended = (w.plugUsed && !lin.getLsbD 0) ∧ t.lines.c.suspended = false) ∧
        (∀ k, t.stations.get k = ⟨.absent, none, none, none, 0, none, false, 0, none, .restart, none⟩ ∧
          t.staleLimits.get k = none ∧ t.outputs.get k = ⟨[], none, 0, 0, 0, []⟩ ∧ t.raw.get k = none) ∧
        t.points = Point.imageAtReset lin ∧
        t.lampLines = List.replicate 6 ⟨.off, none, false, none⟩ ∧
        (∀ g, t.groups.get g = ⟨false, none, [], none, .unknown, .unknown, .unknown, false, false, false⟩ ∧
          t.permitPins.get g = false ∧ t.owners.get g = ⟨.none, 0, ⟨none, none⟩⟩ ∧ t.ops.get g = none ∧
          ∀ src, (t.results.get g).get src = none) ∧
        (t.cab.selected = .a ∧ t.cab.station = .absent ∧
          t.cab.lamps = List.replicate 12 ⟨.off, none, false, none⟩ ∧
          t.cab.alert = ⟨.quiet, ⟨false, false, false, false, false⟩, 0, none, none⟩ ∧
          ∀ g, t.cab.copies.get g =
            ⟨false, none, .unknown, .unknown, .unknown, false, false, .none, false, false⟩) ∧
        (t.port.kind = (if portsel then .spi else .uart) ∧ t.port.rate = baud ∧ t.port.framer = [] ∧
          t.port.table = [] ∧
          t.port.fifo = (if image.isNone then [⟨.notice, 134, 0, [2], false, false⟩] else []) ∧
          t.port.overflowed = false ∧ t.port.counters = ⟨0, 0, 0, 0, 0, 0⟩ ∧ t.port.silent = false ∧
          t.port.silenceTimer = (if w.hostTimeoutMs = 0 then none else some (t.now + w.hostTimeoutMs)) ∧
          t.port.resetBy = none ∧ t.port.sent = 0) ∧
        t.held = false ∧
        (∀ d, c = .hubResetTakesPlace portsel baud lin → s.port.resetBy = some d →
          t.now = if ∃ o ∈ s.port.table, o.code = 3 then max s.now d else s.now)

/-- The six promises of the reset state (log entry 4 says which reset it is). -/
def Obligations.ResetKeepsPromises : Prop :=
  PermitSafe State.reset ∧ MarksCurrent State.reset ∧ PortWithinLimits State.reset ∧
    ImageWhole State.reset ∧ RemoteSlotsSound State.reset ∧ ProfilesSound State.reset

/-- R116, R117: after every step the permit pins match the records, and a permit that is on means bound, locked or
unlocked at every corner, landed state known, and no trip. -/
def Obligations.StepKeepsPermitSafe : Prop :=
  ∀ s t : State, PermitSafe s → step s = .next t → PermitSafe t

/-- R125: every claim mark carries its group's current generation, after every step. -/
def Obligations.StepKeepsMarksCurrent : Prop :=
  ∀ s t : State, MarksCurrent s → step s = .next t → MarksCurrent t

/-- R184, R185, R188: at most 8 outstanding requests, 8 waiting counted replies, 8 waiting uncounted replies and 32
waiting notices, after every step. The counted replies keep their limit because no two outstanding requests share a
tag and each is owed at most one reply, which `PortWithinLimits` says too. -/
def Obligations.StepKeepsPortLimits : Prop :=
  ∀ s t : State, PortWithinLimits s → step s = .next t → PortWithinLimits t

/-- R43, R61, R157: after every step the profile tables are ascending without a repeat and of at most 12, the image has
256 points, and no REMOTE result slot holds REFUSED. -/
def Obligations.StepKeepsTablesSound : Prop :=
  (∀ s t : State, ProfilesSound s → step s = .next t → ProfilesSound t) ∧
  (∀ s t : State, ImageWhole s → step s = .next t → ImageWhole t) ∧
  (∀ s t : State, RemoteSlotsSound s → step s = .next t → RemoteSlotsSound t)

/-! ### The host port -/

/-- R191, R199, R205: HUB_RESET is answered OK at once, drops a pending mode change, cuts off a write in progress so that
the image is bad, and the port takes no frame from then on; once the reply has left, the messages behind it are not
sent; without a HUB_RESET taken its reset does not take place. (That the change and the write are dropped as the
HUB_RESET is taken, though its reset and the end of their requests come later, is log entry 45.) -/
def Obligations.HubResetClosesPort : Prop :=
  (∀ (s : State) (tag : Byte), Ready s tag →
    ∃ t, exec (.hubReset tag []) s = .next t ∧
      t.port.fifo = s.port.fifo ++ [⟨.countedReply, 3, tag, [0], false, false⟩] ∧
      t.port.resetBy = some (s.now + 100) ∧ portClosed t = true ∧ (⟨3, tag⟩ : Outstanding) ∈ t.port.table ∧
      (∀ o ∈ s.port.table, o ∈ t.port.table) ∧
      t = { s with
        port := t.port
        hub := ⟨s.hub.mode, none⟩
        store := { s.store with
          image := if s.store.save.isSome then none else s.store.image
          save := none } }) ∧
  (∀ (s : State), portClosed s = true →
    (∀ cls code tag payload, exec (.wrongClassFrame cls code tag payload) s = .next s) ∧
    (∀ code tag payload, exec (.unknownRequest code tag payload) s = .next s) ∧
    (∀ bytes, exec (.badHostFrame bytes) s = .next s) ∧
    (∀ before after, exec (.hostByteGap before after) s = .next s)) ∧
  (∀ (s : State), s.port.resetBy.isSome = true → (∀ o ∈ s.port.table, o.code ≠ 3) →
    exec .messageSent s = .next s ∧ exec .noticeSendBegin s = .next s ∧
      (s.pending = [] → step s = .next s)) ∧
  (∀ (s : State) (p : Bool) (b : BitVec 2) (l : Byte), s.port.resetBy = none →
    exec (.hubResetTakesPlace p b l) s = .next s)

/-- R183, R184, R192: a request that is taken restarts the silence timer with the timeout then in force, clears the
silent flag and stands behind the table's other requests; one whose tag is held is answered BAD_ARG and one that
finds 8 outstanding BUSY, by an uncounted reply, doing nothing else but restart the timer. -/
def Obligations.RequestTakenOrRefused : Prop :=
  (∀ (code tag : Byte) (payload : List Byte) (f : State → State) (s : State),
    requestHandler code tag payload = some f → Ready s tag →
    (f s).port.table = s.port.table ++ [⟨code, tag⟩] ∧ (f s).port.silent = false ∧
      (f s).port.silenceTimer =
        (if (f s).store.working.hostTimeoutMs = 0 then none
          else some (s.now + (f s).store.working.hostTimeoutMs))) ∧
  (∀ (code tag : Byte) (payload : List Byte) (f : State → State) (s : State),
    requestHandler code tag payload = some f → portClosed s = false →
    (tagHeld tag s = true → f s = uncountedReply code tag .badArg (hearRequest s)) ∧
    (tagHeld tag s = false → 8 ≤ s.port.table.length → f s = uncountedReply code tag .busy (hearRequest s)))

/-- R183, R184, R188: a request of an unknown code restarts the timer and is answered BAD_CODE by an uncounted
reply, dropped and counted when 8 wait; a frame of another class is counted and does not restart the timer. (The framer
is left in HUNT: log entry 23.) -/
def Obligations.UnknownCodeAndWrongClass : Prop :=
  (∀ (s : State) (code tag : Byte) (payload : List Byte),
    portClosed s = false → code.toNat ∉ requestCodes →
    exec (.unknownRequest code tag payload) s = .next (
      if countSort .uncountedReply s.port.fifo < 8 then
        { hearRequest s with port := { (hearRequest s).port with
            fifo := s.port.fifo ++ [⟨.uncountedReply, code, tag, [2], false, false⟩] } }
      else
        { hearRequest s with port := { (hearRequest s).port with
            counters := { s.port.counters with
              droppedReplies := min 65535 (s.port.counters.droppedReplies + 1) } } })) ∧
  (∀ (s : State) (cls code tag : Byte) (payload : List Byte),
    portClosed s = false → cls ≠ 1 →
    exec (.wrongClassFrame cls code tag payload) s = .next { s with port := { s.port with
      framer := []
      counters := { s.port.counters with wrongClass := min 65535 (s.port.counters.wrongClass + 1) } } })

/-- R179, R188, R189: a notice's first byte copies and clears OVERFLOWED; a message leaves with its last byte, a
counted reply freeing its tag; the next byte is the one behind those sent, a UART sends it of itself, and an SPI
transaction that ends part-way through a byte sends none. A notice that has not begun begins first (log entry 30;
that a UART's byte is sent by a step on an empty queue is log entry 1). -/
def Obligations.MessagesLeaveInOrder : Prop :=
  (∀ (s : State) (m : Message) (rest : List Message),
    s.held = false → (s.port.resetBy = none ∨ ∃ o ∈ s.port.table, o.code = 3) → s.port.fifo = m :: rest →
    (m.sort = .notice → m.begun = false →
      exec .noticeSendBegin s = .next { s with port := { s.port with
        overflowed := false
        sent := 1
        fifo := { m with begun := true, overflowBit := s.port.overflowed } :: rest } } ∧
      exec .messageSent s = .next { s with port := { s.port with
        overflowed := false
        fifo := rest
        sent := 0
        lastFrame := hostFrame (if s.port.overflowed then 131 else 3) m.code m.tag m.payload } }) ∧
    (m.sort = .notice → m.begun = true →
      exec .messageSent s = .next { s with port := { s.port with
        fifo := rest
        sent := 0
        lastFrame := hostFrame (if m.overflowBit then 131 else 3) m.code m.tag m.payload } }) ∧
    (m.sort = .countedReply →
      exec .messageSent s = .next { s with port := { s.port with
        fifo := rest
        sent := 0
        table := s.port.table.filter (fun o => o.tag != m.tag)
        lastFrame := hostFrame 2 m.code m.tag m.payload } }) ∧
    (m.sort = .uncountedReply →
      exec .messageSent s = .next { s with port := { s.port with
        fifo := rest
        sent := 0
        lastFrame := hostFrame 2 m.code m.tag m.payload } }) ∧
    (m.sort ≠ .notice ∨ m.begun = true ∨ s.port.sent = 0 →
      nextOutbound s = (hostFrame (if m.sort = .notice then (if m.overflowBit then 131 else 3) else 2)
        m.code m.tag m.payload)[s.port.sent]?) ∧
    (s.port.kind = .uart → s.pending = [] →
      (s.port.sent + 1 < 8 + m.payload.length →
        (m.sort ≠ .notice ∨ m.begun = true →
          step s = .next { s with port := { s.port with sent := s.port.sent + 1 } }) ∧
        (m.sort = .notice → m.begun = false →
          step s = .next { s with port := { s.port with
            overflowed := false
            sent := s.port.sent + 1
            fifo := { m with begun := true, overflowBit := s.port.overflowed } :: rest } })) ∧
      (8 + m.payload.length ≤ s.port.sent + 1 → step s = exec .messageSent s))) ∧
  (∀ s : State,
    (s.port.fifo = [] → nextOutbound s = if s.port.kind = .uart then none else some 255) ∧
    (∀ bits : List Bool, bits.length < 8 → (spiTransaction bits s).1 = s))

/-- R182: a frame with a bad check, a bad length or a framing error is discarded and counted, and changes nothing else;
the hunt restarts at the byte after its start byte. A gap of more than 20 ms ends a frame being assembled as a break,
and the hunt restarts with the byte that ended the gap. (That a start value with a framing error, found as the hunt
restarts, is dropped uncounted is log entry 22; that a framing error is a break on a byte that also decides a bad
length or check is log entry 52.) -/
def Obligations.BadHostFramesAreCounted : Prop :=
  (∀ s : State, portClosed s = false → s.port.framer = [] →
    (∀ (hi lo : Byte) (body : List Byte),
      u16 hi lo ≤ 1024 → body.length = u16 hi lo + 5 → (∀ b ∈ hi :: lo :: body, b ≠ 126) →
      checkBytes (hi :: lo :: body.take (u16 hi lo + 3)) ≠ body.drop (u16 hi lo + 3) →
      exec (.badHostFrame ((126 :: hi :: lo :: body).map (fun b => ⟨b, true⟩))) s =
        .next { s with port := { s.port with
          counters := { s.port.counters with badCheck := min 65535 (s.port.counters.badCheck + 1) } } }) ∧
    (∀ (hi lo : Byte), 1024 < u16 hi lo → hi ≠ 126 → lo ≠ 126 →
      exec (.badHostFrame [⟨126, true⟩, ⟨hi, true⟩, ⟨lo, true⟩]) s =
        .next { s with port := { s.port with
          counters := { s.port.counters with badLength := min 65535 (s.port.counters.badLength + 1) } } }) ∧
    (∀ lo : Byte,
      exec (.badHostFrame [⟨126, true⟩, ⟨126, true⟩, ⟨lo, true⟩]) s =
        .next { s with port := { s.port with
          framer := [⟨126, true⟩, ⟨lo, true⟩]
          counters := { s.port.counters with badLength := min 65535 (s.port.counters.badLength + 1) } } }) ∧
    (∀ b : Byte, s.port.kind = .uart →
      exec (.badHostFrame [⟨126, true⟩, ⟨b, false⟩]) s =
        .next { s with port := { s.port with
          counters := { s.port.counters with breaks := min 65535 (s.port.counters.breaks + 1) } } })) ∧
  (∀ (s : State) (b : Byte), portClosed s = false →
    (s.port.framer ≠ [] →
      exec (.hostByteGap [] ⟨b, true⟩) s = .next { s with port := { s.port with
        framer := if b = 126 then [⟨b, true⟩] else []
        counters := { s.port.counters with breaks := min 65535 (s.port.counters.breaks + 1) } } }) ∧
    (s.port.framer = [] →
      exec (.hostByteGap [] ⟨b, true⟩) s = .next { s with port := { s.port with
        framer := if b = 126 then [⟨b, true⟩] else [] } }))

/-- R180 to R182, R209: the framer reads every well-formed host frame back, field by field, and is left in HUNT. -/
def Obligations.FramerReadsEveryFrame : Prop :=
  ∀ (cls code tag : Byte) (payload : List Byte), payload.length ≤ 1024 →
    arriveBytes [] ((hostFrame cls code tag payload).map (fun b => ⟨b, true⟩)) =
      ([.frame cls code tag payload], [])

/-- R134, R192, R193: the silence event sets the silent flag and stops the timer; a group owned by REMOTE lapses
and its operation ends; on another group only the REMOTE mark goes. -/
def Obligations.HostSilenceLapsesRemote : Prop :=
  ∀ (s : State) (d : Nat), s.held = false → s.port.silenceTimer = some d →
    ∃ t, exec .hostSilenceEvent s = .next t ∧ t.port.silent = true ∧ t.port.silenceTimer = none ∧
      ∀ g, ((s.owners.get g).owner = .remote →
          t.owners.get g = ⟨.none, (s.owners.get g).generation + 1, ⟨none, none⟩⟩ ∧ t.ops.get g = none) ∧
        ((s.owners.get g).owner ≠ .remote →
          t.owners.get g = { s.owners.get g with marks := ⟨(s.owners.get g).marks.cab, none⟩ })

/-! ### Snapshots -/

/-- R194, R195: the replies of HUB_INFO and HUB_STATUS; the part identifier and revision are free values (log
entry 19). With the clear option the six counters are zeroed behind the snapshot. -/
def Obligations.HubInfoAndStatusReply : Prop :=
  ∀ (s : State) (tag : Byte), Ready s tag →
    exec (.hubInfo tag []) s = .next (replyBytes 1 tag .ok
      (be16 Config.partIdentifier.toNat ++ [Config.designRevision, portKindCode s.port.kind]
        ++ be32 (if s.port.kind = .spi then 0 else
            if s.port.rate = 0 then 115200 else if s.port.rate = 1 then 230400
            else if s.port.rate = 2 then 460800 else 921600)
        ++ be16 256 ++ [12, 8, 32] ++ be16 1024 ++ [4, 1])
      (acceptRequest 1 tag s)) ∧
    (∀ clear : Bool, exec (.hubStatus tag [bit clear]) s = .next (
      let u := acceptRequest 2 tag s
      replyBytes 2 tag .ok
        ([modeCode s.hub.mode, bit s.hub.change.isSome, bit s.store.invalid, bit s.store.save.isSome, 0]
          ++ be16 s.store.working.hostTimeoutMs
          ++ [byteOf (s.port.table.length + 1), byteOf (countSort .notice s.port.fifo), bit s.port.overflowed]
          ++ be16 s.port.counters.badCheck ++ be16 s.port.counters.badLength ++ be16 s.port.counters.breaks
          ++ be16 s.port.counters.wrongClass ++ be16 s.port.counters.droppedReplies
          ++ be16 s.port.counters.droppedNotices ++ stateCounts s .s ++ stateCounts s .c)
        (if clear then { u with port := { u.port with counters := ⟨0, 0, 0, 0, 0, 0⟩ } } else u)))

/-- R39, R55, R56, R120, R177, R194, R195, R201, R203: the requests that read change the host port and nothing
else. R80 to R82, R96, R97, R99: the requests on points and outputs leave every other block as it stands. -/
def Obligations.ReadAndPointRequestsFrame : Prop :=
  ∀ (tag : Byte) (payload : List Byte) (s t : State),
    (∀ c ∈ [Instr.hubInfo tag payload, .hubStatus tag payload, .settingsGet tag payload,
        .profileGet tag payload, .profileList tag payload, .stationList tag payload, .rawSamples tag payload,
        .groupStatus tag payload, .alertStatus tag payload],
      exec c s = .next t → t = { s with port := t.port }) ∧
    (∀ c ∈ [Instr.pointsRead tag payload, .changesClear tag payload, .pointNotify tag payload],
      exec c s = .next t → t = { s with port := t.port, points := t.points }) ∧
    (exec (.pointFence tag payload) s = .next t → t = { s with port := t.port, outputs := t.outputs }) ∧
    (exec (.rawWrite tag payload) s = .next t →
      t = { s with port := t.port, points := t.points, outputs := t.outputs }) ∧
    (exec (.pointWrite tag payload) s = .next t →
      t = { s with port := t.port, points := t.points, outputs := t.outputs, lampLines := t.lampLines })

/-- R114, R123 to R135, R140 to R158, R168, R175, R176, R193: what the commands about groups, owners, operations,
the alert and the cab's lamps leave as it is. -/
def Obligations.GroupCommandsFrame : Prop :=
  ∀ (c : Instr) (s t : State),
    ((∃ q, c = .claimRead q ∨ c = .claimSet q ∨ c = .claimRelease q ∨ c = .opStop q ∨ c = .tripClear q) ∨
      (∃ q, c = .operate q) ∨ (∃ tag payload, c = .resultTake tag payload ∨ c = .alertAck tag payload) ∨
      (∃ g src, c = .claimMarkExpiry g src) ∨ (∃ g, c = .operationDeadline g) ∨
      (∃ k, c = .cabLampHalfPeriodExpiry k) ∨ c = .hostSilenceEvent ∨ c = .soundTimerExpiry ∨
      c = .restTimerExpiry) →
    exec c s = .next t →
    t.lines = s.lines ∧ t.stations = s.stations ∧ t.staleLimits = s.staleLimits ∧ t.raw = s.raw ∧
      t.profiles = s.profiles ∧ t.store = s.store ∧ t.hub = s.hub ∧ t.lampLines = s.lampLines ∧
      t.held = s.held ∧ t.points.length = s.points.length

/-- R17 to R41, R74, R197: what the slots, verdicts, timers and samples of the lines and the local inputs leave as
it is; without a pending mode change they leave the mode too. -/
def Obligations.FieldCommandsFrame : Prop :=
  ∀ (c : Instr) (s t : State),
    ((∃ l, c = .cycleStart l ∨ c = .probeSlotStart l ∨ c = .paramSlotStart l) ∨
      (∃ k, c = .stationSlotStart k ∨ c = .holdoffExpiry k) ∨
      (∃ l rx, c = .scanAnswerGood l rx ∨ c = .scanMiss l rx ∨ c = .rollAnswerGood l rx ∨ c = .probeMiss l rx ∨
        c = .paramAnswerGood l rx ∨ c = .paramMiss l rx) ∨
      (∃ k level, c = .localInputFlip k level) ∨ (∃ lin, c = .localInputSample lin)) →
    exec c s = .next t →
    t.profiles = s.profiles ∧ t.store = s.store ∧ t.lampLines = s.lampLines ∧ t.held = s.held ∧
      t.port.table = s.port.table ∧ t.port.counters.badCheck = s.port.counters.badCheck ∧
      t.port.silent = s.port.silent ∧ t.port.silenceTimer = s.port.silenceTimer ∧
      t.port.resetBy = s.port.resetBy ∧ t.points.length = s.points.length ∧
      (s.hub.change = none → t.hub = s.hub)

/-- R39, R201, R211: the replies of STATION_LIST and RAW_SAMPLES. The active cost is that of the running cycle's
slots (log entry 35). -/
def Obligations.StationListAndRawSamplesReply : Prop :=
  ∀ (s : State) (tag : Byte), Ready s tag →
    (∀ l, exec (.stationList tag [lineCode l]) s = .next (replyBytes 32 tag .ok
      ([lineCode l] ++ be16 (s.lines.get l).inForce.period
        ++ be16 (((s.lines.get l).plan.map (·.length)).sum)
        ++ be16 (scheduleCost s ((s.lines.get l).awaiting.getD (s.lines.get l).inForce) (s.lines.get l).next)
        ++ be16 (((s.lines.get l).awaiting.map (·.period)).getD 0)
        ++ [byteOf (lineStations l).length] ++ (lineStations l).flatMap (stationEntry s))
      (acceptRequest 32 tag s))) ∧
    (∀ k r, s.hub.mode = .commission → s.raw.get k = some r →
      exec (.rawSamples tag [lineCode (lineOf k), byteOf (addressOf k)]) s = .next (replyBytes 36 tag .ok
        ([stationStateCode (s.stations.get k).state] ++ identityBytes (s.stations.get k).identity
          ++ [bit r.samples.isSome, bit r.outputsSafe, byteOf r.age,
              (s.outputs.get k).lastAssigned.zeroExtend 8, (s.outputs.get k).lastAck.zeroExtend 8,
              (s.outputs.get k).lastEcho.zeroExtend 8]
          ++ (r.samples.getD []).flatMap (fun w => be16 w.toNat))
        (acceptRequest 36 tag s))) ∧
    (∀ k, s.hub.mode ≠ .commission →
      exec (.rawSamples tag [lineCode (lineOf k), byteOf (addressOf k)]) s =
        .next (replyBytes 36 tag .mode [] (acceptRequest 36 tag s)))

/-- R203, R211: SETTINGS_GET's reply; R55, R56: PROFILE_GET of a stored or built-in profile, and PROFILE_LIST.
(The ascending order of the addresses in a use list is log entry 48.) -/
def Obligations.SettingsAndProfileReplies : Prop :=
  (∀ (s : State) (tag : Byte), Ready s tag →
    exec (.settingsGet tag []) s = .next (replyBytes 6 tag .ok
      (([s.store.working.line.s.divisor, s.store.working.line.s.period, s.store.working.line.s.respUs,
          s.store.working.line.c.divisor, s.store.working.line.c.period, s.store.working.line.c.respUs,
          s.store.working.hostTimeoutMs, s.store.working.claimWindowMs, s.store.working.soundMs,
          s.store.working.restMs] ++ s.store.working.qualifyMs
          ++ [s.store.working.plugUsed.toNat, s.store.working.mask.toNat,
              (modeCode s.store.working.startMode).toNat]).flatMap be16
        ++ lineReport s.lines.s ++ lineReport s.lines.c)
      (acceptRequest 6 tag s)) ∧
    (∀ b rest, exec (.settingsGet tag (b :: rest)) s =
      .next (replyBytes 6 tag .badArg [] (acceptRequest 6 tag s)))) ∧
  (∀ (s : State) (tag : Byte), Ready s tag →
    (∀ hi lo p, tableProfile s (u16 hi lo) = some p →
      exec (.profileGet tag [0, hi, lo]) s = .next (replyBytes 17 tag .ok
        (profileBytes p ++ usersBytes (usersOf s (.table (u16 hi lo)))) (acceptRequest 17 tag s))) ∧
    (∀ hi lo, tableProfile s (u16 hi lo) = none →
      exec (.profileGet tag [0, hi, lo]) s = .next (replyBytes 17 tag .notFound [] (acceptRequest 17 tag s))) ∧
    (∀ hi lo, exec (.profileGet tag [1, hi, lo]) s = .next (replyBytes 17 tag .ok
        (profileBytes spreaderProfile ++ usersBytes (usersOf s .builtInSpreader)) (acceptRequest 17 tag s))) ∧
    (∀ hi lo, exec (.profileGet tag [2, hi, lo]) s = .next (replyBytes 17 tag .ok
        (profileBytes cabProfile ++ usersBytes (usersOf s .builtInCab)) (acceptRequest 17 tag s))) ∧
    exec (.profileList tag []) s = .next (replyBytes 19 tag .ok
        ([byteOf s.profiles.length, 12] ++ s.profiles.flatMap (listEntry s)) (acceptRequest 19 tag s)))

/-- R120, R177, R211: the replies of GROUP_STATUS and ALERT_STATUS. (That the position's value and quality without a
size part, and the kind and phase without an operation, are sent as 0 is the model's choice, log entry 20.) -/
def Obligations.GroupAndAlertStatusReply : Prop :=
  ∀ (s : State) (tag : Byte), Ready s tag →
    (∀ g, exec (.groupStatus tag [groupCode g]) s = .next (replyBytes 64 tag .ok
      (let r := s.groups.get g
       let o := s.owners.get g
       [groupCode g, bit r.bound, byteOf ((r.station.map addressOf).getD 0)]
        ++ profileRefBytes (r.station.bind (fun k => (s.stations.get k).profile))
        ++ [byteOf r.corners.length] ++ r.corners.flatMap cornerReport
        ++ [lockStateCode r.lock, landedStateCode r.landed, sizeStateCode r.size]
        ++ positionReport s r.position
        ++ [bit r.slackReady, bit r.trip, bit r.permit, ownerCode o.owner] ++ be16 o.generation.toNat
        ++ operationReport (s.ops.get g))
      (acceptRequest 64 tag s))) ∧
    exec (.alertStatus tag []) s = .next (replyBytes 80 tag .ok
      ([alertStateCode s.cab.alert.state, alertReasonsByte s.cab.alert.reasons, byteOf s.cab.alert.count]
        ++ be16 (match s.cab.alert.state with
          | .quiet => 0
          | .sounding => (s.cab.alert.soundTimer.map (· - s.now)).getD 0
          | .resting => (s.cab.alert.restTimer.map (· - s.now)).getD 0)
        ++ be16 s.store.working.soundMs ++ be16 s.store.working.restMs
        ++ [groupCode s.cab.selected, stationStateCode s.cab.station]
        ++ [0, 1, 2, 3, 4, 5, 6, 7, 8, 9, 10, 11].flatMap (ownedReport s))
      (acceptRequest 80 tag s))

/-! ### Modes, settings and the store -/

/-- R198: MODE_SET is refused while a change is pending, answered at once in the same mode, and otherwise starts
the change: operations end, owners lapse, marks clear, and the teardown waits while a transfer is pending (when it is
taken is log entry 16). -/
def Obligations.ModeSetStartsChange : Prop :=
  ∀ (s : State) (tag : Byte) (m : Mode), Ready s tag →
    (s.hub.change.isSome = true →
      exec (.modeSet tag [modeCode m]) s = .next (replyBytes 4 tag .busy [] (acceptRequest 4 tag s))) ∧
    (s.hub.change = none → s.hub.mode = m →
      exec (.modeSet tag [modeCode m]) s = .next (replyBytes 4 tag .ok [modeCode m] (acceptRequest 4 tag s))) ∧
    (s.hub.change = none → s.hub.mode ≠ m → noTransfers s = false →
      ∃ t, exec (.modeSet tag [modeCode m]) s = .next t ∧ t.hub = ⟨s.hub.mode, some ⟨m, tag⟩⟩ ∧
        t.stations = s.stations ∧ t.lines = s.lines ∧
        ∀ g, t.ops.get g = none ∧ (t.owners.get g).owner = .none ∧ (t.owners.get g).marks = ⟨none, none⟩ ∧
          (t.owners.get g).generation =
            (if (s.owners.get g).owner = .none then (s.owners.get g).generation
              else (s.owners.get g).generation + 1)) ∧
    (s.hub.change = none → s.hub.mode ≠ m → noTransfers s = true →
      ∃ t, exec (.modeSet tag [modeCode m]) s = .next t ∧ t.hub = ⟨m, none⟩)

/-- R42, R200: the teardown sends every record to ABSENT with cause MODE and keeps identities and recovery counts,
empties both schedules and the raw store, takes the new mode and answers MODE_SET ahead of the HUB notice (log entries
15 and 16). -/
def Obligations.TeardownCompletesChange : Prop :=
  ∀ (s : State) (c : ModeChange), s.held = false → s.hub.change = some c → noTransfers s = true →
    ∃ t, exec .modeTeardown s = .next t ∧ t.hub = ⟨c.target, none⟩ ∧
      (∀ k, (t.stations.get k).state = .absent ∧ (t.stations.get k).lastCause = .mode ∧
        (t.stations.get k).identity = (s.stations.get k).identity ∧
        (t.stations.get k).recovery = (s.stations.get k).recovery ∧ t.raw.get k = none) ∧
      (∀ l, (t.lines.get l).active = [] ∧ (t.lines.get l).next = [] ∧ (t.lines.get l).slot = none ∧
        (t.lines.get l).probePtr = topAddress l ∧ (t.lines.get l).paramPtr = topAddress l) ∧
      t.store = s.store ∧ t.profiles = s.profiles ∧ t.lampLines = s.lampLines ∧
      ∃ before, t.port.fifo = before ++ [⟨.countedReply, 4, c.tag, [0, modeCode c.target], false, false⟩] ∨
        t.port.fifo = before ++ [⟨.countedReply, 4, c.tag, [0, modeCode c.target], false, false⟩,
          ⟨.notice, 134, 0, [0, modeCode c.target], false, false⟩]

/-- R202, R203: SETTINGS_SET clamps and applies every item at once; a named line's settings await its next cycle;
the reply carries every value applied. (plug_used has its own statement; the order of the effects is log entry 38.) -/
def Obligations.SettingsSetApplies : Prop :=
  ∀ (s : State) (tag : Byte) (payload : List Byte) (items : List Item), Ready s tag →
    wellFormedItems payload = some items → items.all knownValue = true → (∀ i ∈ items, i.1 ≠ 18) →
    lineFits .s (items.map clampItem) s = true → lineFits .c (items.map clampItem) s = true →
    s.hub.change = none →
    ∃ t, exec (.settingsSet tag payload) s = .next t ∧
      (∀ l, (t.lines.get l) =
        (if namesLine l items then
          { s.lines.get l with awaiting := some (requestedLine l (items.map clampItem) s) }
        else s.lines.get l)) ∧
      (∀ l, t.store.working.line.get l =
        (if namesLine l items then requestedLine l (items.map clampItem) s else s.store.working.line.get l)) ∧
      { t.store.working with line := s.store.working.line } =
        { ((items.map clampItem).foldl applyItem s.store.working) with line := s.store.working.line } ∧
      t.store.image = s.store.image ∧ t.store.save = s.store.save ∧
      t.port.fifo = s.port.fifo ++ [⟨.countedReply, 5, tag,
        0 :: byteOf items.length :: (items.map clampItem).flatMap (fun i => byteOf i.1 :: be16 i.2),
        false, false⟩] ∧
      t.stations = s.stations ∧ t.points = s.points ∧ t.hub = s.hub

/-- R34 to R37: setting plug_used to 0 ends the suspension; setting it to 1 while LIN0's accepted value is 0 acts as a
fall of PLUG, at which every S-line station departs to ABSENT, and while it is 1 changes nothing on the line. -/
def Obligations.PlugUsedActsAtOnce : Prop :=
  ∀ (s : State) (tag : Byte), Ready s tag → s.hub.change = none →
    (∃ t, exec (.settingsSet tag [1, 18, 0, 0]) s = .next t ∧ t.store.working.plugUsed = false ∧
      t.lines.s.suspended = false ∧ t.stations = s.stations) ∧
    ((pointAt s 0).value ≠ 0 →
      ∃ t, exec (.settingsSet tag [1, 18, 0, 1]) s = .next t ∧ t.store.working.plugUsed = true ∧
        t.lines = s.lines ∧ t.stations = s.stations) ∧
    ((pointAt s 0).value = 0 →
      ∃ t, exec (.settingsSet tag [1, 18, 0, 1]) s = .next t ∧ t.store.working.plugUsed = true ∧
        t.lines.s.suspended = true ∧ t.stations.c1 = s.stations.c1 ∧
        ∀ k ∈ [Stn.s1, .s2, .s3, .s4], (t.stations.get k).state = .absent ∧
          ((s.stations.get k).state ≠ .absent →
            (t.stations.get k).lastCause = .unplugged ∧ (t.stations.get k).profile = none ∧
            (t.stations.get k).identity = (s.stations.get k).identity ∧ Departed k true s t))

/-- R202: a SETTINGS_SET refused with BAD_ARG or BUDGET only makes its reply; and the range of every timing value. -/
def Obligations.SettingsRefusedOrClamped : Prop :=
  (∀ (s : State) (tag : Byte) (payload : List Byte), Ready s tag →
    (wellFormedItems payload = none →
      exec (.settingsSet tag payload) s = .next (replyBytes 5 tag .badArg [] (acceptRequest 5 tag s))) ∧
    (∀ items, wellFormedItems payload = some items → items.all knownValue = false →
      exec (.settingsSet tag payload) s = .next (replyBytes 5 tag .badArg [] (acceptRequest 5 tag s))) ∧
    (∀ items l, wellFormedItems payload = some items → items.all knownValue = true →
      lineFits l (items.map clampItem) s = false →
      exec (.settingsSet tag payload) s = .next (replyBytes 5 tag .budget [] (acceptRequest 5 tag s)))) ∧
  (∀ n v : Nat, n < 21 →
    (clampItem (n, v)).1 = n ∧
    (n = 0 ∨ n = 3 → (clampItem (n, v)).2 = max 12 (min 192 v)) ∧
    (n = 1 ∨ n = 4 → (clampItem (n, v)).2 = max 1000 (min 50000 v)) ∧
    (n = 2 ∨ n = 5 → (clampItem (n, v)).2 = max 10 (min 500 v)) ∧
    (n = 6 → (clampItem (n, v)).2 = if v = 0 then 0 else max 100 (min 10000 v)) ∧
    (n = 7 → (clampItem (n, v)).2 = max 500 (min 30000 v)) ∧
    (n = 8 → (clampItem (n, v)).2 = max 500 (min 10000 v)) ∧
    (n = 9 → (clampItem (n, v)).2 = min 60000 v) ∧
    (10 ≤ n → n ≤ 17 → (clampItem (n, v)).2 = max 1 (min 255 v)) ∧
    (18 ≤ n → (clampItem (n, v)).2 = v))

/-- R204, R205: STORE_SAVE snapshots the settings and the table and waits; the end of the write makes the image the
snapshot or leaves it bad; what a verified save holds is what the next reset loads, and a failed one leaves the
factory defaults, an empty table and STORE_INVALID as the first message. (That the failure itself makes no notice is
log entry 18.) -/
def Obligations.StoreSaveAndLoad : Prop :=
  ((∀ (s : State) (tag : Byte), Ready s tag →
    (s.store.save = none →
      exec (.storeSave tag []) s = .next { acceptRequest 7 tag s with
        store := { s.store with save := some ⟨⟨s.store.working, s.profiles⟩, tag⟩ } }) ∧
    (s.store.save.isSome = true →
      exec (.storeSave tag []) s = .next (replyBytes 7 tag .busy [] (acceptRequest 7 tag s)))) ∧
  (∀ (s : State) (v : Save), s.held = false → s.store.save = some v →
    exec (.storeWriteEnd true) s = .next (replyBytes 7 v.tag .ok []
      { s with store := { s.store with image := some v.snapshot, invalid := false, save := none } }) ∧
    exec (.storeWriteEnd false) s = .next (replyBytes 7 v.tag .storeFailed []
      { s with store := { s.store with image := none, invalid := true, save := none } }))) ∧
  (∀ (s : State) (v : Save) (portsel : Bool) (baud : BitVec 2) (lin : Byte),
    s.held = false → s.store.save = some v →
    (∃ t u, exec (.storeWriteEnd true) s = .next t ∧ exec (.powerOnReset portsel baud lin) t = .next u ∧
      u.store.working = v.snapshot.settings ∧ u.profiles = v.snapshot.profiles ∧ u.store.invalid = false ∧
      u.hub.mode = v.snapshot.settings.startMode ∧ u.port.fifo = []) ∧
    (∃ t u, exec (.storeWriteEnd false) s = .next t ∧ exec (.powerOnReset portsel baud lin) t = .next u ∧
      u.store.working = Settings.factory ∧ u.profiles = [] ∧ u.store.invalid = true ∧ u.hub.mode = .basic ∧
      u.port.fifo = [⟨.notice, 134, 0, [2], false, false⟩]))

/-! ### The profile table -/

/-- R55: a stored record that is read back and sent again passes validation and is the same record. -/
def Obligations.ProfileRecordRoundTrip : Prop :=
  ∀ (payload : List Byte) (p : Profile), readProfile payload = .ok p → readProfile (profileBytes p) = .ok p

/-- R50 to R54: PROFILE_PUT of a valid record adds, replaces or is refused; PROFILE_DROP removes or is refused. -/
def Obligations.ProfilePutAndDrop : Prop :=
  ∀ (s : State) (tag : Byte), Ready s tag →
    (∀ payload p, readProfile payload = .ok p →
      (tableProfile s p.typeCode = none → s.profiles.length < 12 →
        exec (.profilePut tag payload) s = .next (replyBytes 16 tag .ok
          [0, byteOf (insertProfile p s.profiles).length]
          { acceptRequest 16 tag s with profiles := insertProfile p s.profiles })) ∧
      (tableProfile s p.typeCode = none → 12 ≤ s.profiles.length →
        exec (.profilePut tag payload) s = .next (replyBytes 16 tag .noRoom [] (acceptRequest 16 tag s))) ∧
      ((tableProfile s p.typeCode).isSome = true → usersOf s (.table p.typeCode) = [] →
        exec (.profilePut tag payload) s = .next (replyBytes 16 tag .ok
          [1, byteOf (insertProfile p s.profiles).length]
          { acceptRequest 16 tag s with profiles := insertProfile p s.profiles })) ∧
      ((tableProfile s p.typeCode).isSome = true → usersOf s (.table p.typeCode) ≠ [] →
        exec (.profilePut tag payload) s = .next (replyBytes 16 tag .inUse [] (acceptRequest 16 tag s)))) ∧
    (∀ payload field element, readProfile payload = .error (.badProfile field element) →
      exec (.profilePut tag payload) s = .next (replyBytes 16 tag .badProfile
        [byteOf field, byteOf element] (acceptRequest 16 tag s))) ∧
    (∀ hi lo : Byte,
      (tableProfile s (u16 hi lo) = none →
        exec (.profileDrop tag [hi, lo]) s = .next (replyBytes 18 tag .notFound [] (acceptRequest 18 tag s))) ∧
      ((tableProfile s (u16 hi lo)).isSome = true → usersOf s (.table (u16 hi lo)) ≠ [] →
        exec (.profileDrop tag [hi, lo]) s = .next (replyBytes 18 tag .inUse [] (acceptRequest 18 tag s))) ∧
      ((tableProfile s (u16 hi lo)).isSome = true → usersOf s (.table (u16 hi lo)) = [] →
        exec (.profileDrop tag [hi, lo]) s = .next (replyBytes 18 tag .ok
          [byteOf (s.profiles.filter (fun p => p.typeCode != u16 hi lo)).length]
          { acceptRequest 18 tag s with
            profiles := s.profiles.filter (fun p => p.typeCode != u16 hi lo) })))

/-! ### Points and outputs -/

/-- R80, R81: POINTS_READ is a snapshot of the range with the count of set flags before any clear, and its clear option
clears exactly the range's flags; POINT_NOTIFY sets the flag and answers its previous value, or NOT_FOUND. -/
def Obligations.PointsReadAndNotify : Prop :=
  (∀ (s : State) (tag first count : Byte) (clear : Bool), Ready s tag →
    1 ≤ count.toNat → count.toNat ≤ 64 → first.toNat + count.toNat ≤ 256 →
    ∀ u : State,
      u = (if clear then
            { acceptRequest 48 tag s with
              points := mapWindow (fun _ p => { p with changed := false }) first.toNat count.toNat s.points }
          else acceptRequest 48 tag s) →
      exec (.pointsRead tag [first, count, 0, bit clear]) s = .next (replyBytes 48 tag .ok
        (be16 (s.points.filter (·.changed)).length ++ [first, count]
          ++ ((s.points.drop first.toNat).take count.toNat).flatMap (fun p =>
              [pointKindCode p.kind] ++ be16Int p.value ++ [bit p.raw.isSome] ++ be16 ((p.raw.getD 0).toNat)
                ++ [qualityCode p.quality, byteOf p.age])) u) ∧
      exec (.pointsRead tag [first, count, 1, bit clear]) s = .next (replyBytes 48 tag .ok
        (be16 (s.points.filter (·.changed)).length ++ [first, count]
          ++ flagBytes ((count.toNat + 7) / 8) ((s.points.drop first.toNat).take count.toNat)) u)) ∧
  (∀ (s : State) (tag i : Byte) (flag : Bool), Ready s tag →
    ((pointAt s i.toNat).quality = .unmapped →
      exec (.pointNotify tag [i, bit flag]) s = .next (replyBytes 50 tag .notFound [] (acceptRequest 50 tag s))) ∧
    ((pointAt s i.toNat).quality ≠ .unmapped →
      exec (.pointNotify tag [i, bit flag]) s = .next (replyBytes 50 tag .ok [bit (pointAt s i.toNat).notify]
        { acceptRequest 50 tag s with
          points := s.points.set i.toNat { pointAt s i.toNat with notify := flag } })))

/-- R82, whole: the range's flags are cleared and counted, nothing else of a point changes, a bad range is refused,
and a later change sets its flag again. -/
def Obligations.ChangesClearWhole : Prop :=
  (∀ (s : State) (tag first c1 c0 : Byte), Ready s tag → ImageWhole s →
    ((u16 c1 c0 = 0 ∨ 256 < first.toNat + u16 c1 c0) →
      exec (.changesClear tag [first, c1, c0]) s = .next (replyBytes 49 tag .badArg [] (acceptRequest 49 tag s))) ∧
    (1 ≤ u16 c1 c0 → first.toNat + u16 c1 c0 ≤ 256 →
      ∃ t, exec (.changesClear tag [first, c1, c0]) s = .next t ∧
        t = { s with points := t.points, port := t.port } ∧
        t.port = (replyBytes 49 tag .ok
          (be16 (((s.points.drop first.toNat).take (u16 c1 c0)).filter (·.changed)).length)
          (acceptRequest 49 tag s)).port ∧
        t.points.length = 256 ∧
        ∀ i, i < 256 → pointAt t i =
          (if first.toNat ≤ i ∧ i < first.toNat + u16 c1 c0 then { pointAt s i with changed := false }
            else pointAt s i))) ∧
  (∀ (t : State) (new : List Point) (i : Nat) (p q : Point),
    t.points[i]? = some p → new[i]? = some q → (p.value ≠ q.value ∨ p.quality ≠ q.quality) →
    (pointAt (commitPoints new t).1 i).changed = true)

/-- R96, R100: a write to a lamp line (points 10 to 15) takes effect at once in OFF or ON and is held while
flashing; LOUT2 to LOUT7 follow. -/
def Obligations.LampLineWriteTakenOrHeld : Prop :=
  ∀ (s : State) (tag : Byte) (k : Fin 6) (m : LampMode), Ready s tag →
    (pointAt s (10 + k.val)).kind = .lamp → (pointAt s (10 + k.val)).home = .localPin (2 + k.val) →
    (pointAt s (10 + k.val)).quality = .good → (pointAt s (10 + k.val)).owner = .free →
    s.lampLines.length = 6 →
    ∃ t, exec (.pointWrite tag [byteOf (10 + k.val), 0, lampModeCode m]) s = .next t ∧
      (((lampAt s k.val).mode = .off ∨ (lampAt s k.val).mode = .on) →
        t.port.fifo.getLast? = some ⟨.countedReply, 51, tag, [0, 2, 0], false, false⟩ ∧
        lampAt t k.val = ⟨m, none, decide (m ≠ .off),
          if m = .flashSlow then some (s.now + 500) else if m = .flashFast then some (s.now + 125) else none⟩) ∧
      (((lampAt s k.val).mode = .flashSlow ∨ (lampAt s k.val).mode = .flashFast) →
        t.port.fifo.getLast? = some ⟨.countedReply, 51, tag, [0, 3, 0], false, false⟩ ∧
        lampAt t k.val = { lampAt s k.val with held := some m }) ∧
      (∀ j, j ≠ k.val → lampAt t j = lampAt s j) ∧ t.outputs = s.outputs

/-- R73, R87, R96: a POINT_WRITE to a free station output that is scanned and has room is combined or appended, the
intended value follows it, and the written report gives the output's point the value, sets write outstanding and
makes GOOD PENDING, with its changed flag where the value or quality moves, and changes no other point. -/
def Obligations.StationWriteEntersList : Prop :=
  ∀ (s : State) (tag i : Byte) (v : Bool) (k : Stn) (j : Nat), Ready s tag →
    (pointAt s i.toNat).kind = .dout → (pointAt s i.toNat).quality ≠ .unmapped →
    (pointAt s i.toNat).owner = .free → writeTarget i.toNat (pointAt s i.toNat) = some (.output k j) →
    (s.hub.mode = .commission → i.toNat ≤ 15) → isScanned (s.stations.get k).state = true →
    (combines j (s.outputs.get k).list = true ∨ (s.outputs.get k).list.length < 14) →
    ∃ t, exec (.pointWrite tag [i, 0, bit v]) s = .next t ∧
      t.outputs.get k = { s.outputs.get k with
        list := putWrite j (BitVec.ofNat 16 v.toNat) (s.outputs.get k).list
        intended := (s.outputs.get k).intended.set j (BitVec.ofNat 16 v.toNat) } ∧
      (∀ k', k' ≠ k → t.outputs.get k' = s.outputs.get k') ∧
      t.port.fifo.getLast? = some ⟨.countedReply, 51, tag,
        [0, if combines j (s.outputs.get k).list then 1 else 0,
          byteOf (putWrite j (BitVec.ofNat 16 v.toNat) (s.outputs.get k).list).length], false, false⟩ ∧
      t.stations = s.stations ∧
      (∀ p, profileOf s k = some p → outputPoint p j < s.points.length →
        (∀ q, q = pointAt s (outputPoint p j) → pointAt t (outputPoint p j) = { q with
          value := v.toNat
          writeOut := true
          quality := if q.quality = .good then .pending else q.quality
          changed := q.changed || decide (q.quality = .good ∨ q.value ≠ v.toNat) }) ∧
        ∀ n, n ≠ outputPoint p j → pointAt t n = pointAt s n)

/-- R88, R99: POINT_FENCE adds a FENCE, or answers NOT_NEEDED where the list is empty without a batch or ends in
one, or is refused for want of room or because the station is not scanned. -/
def Obligations.PointFenceAddsFence : Prop :=
  ∀ (s : State) (tag : Byte) (k : Stn), Ready s tag →
    (isScanned (s.stations.get k).state = false →
      exec (.pointFence tag [lineCode (lineOf k), byteOf (addressOf k)]) s =
        .next (replyBytes 52 tag .notOnline [] (acceptRequest 52 tag s))) ∧
    (isScanned (s.stations.get k).state = true →
      (((s.outputs.get k).list = [] ∧ (s.outputs.get k).inFlight = none) ∨
        (s.outputs.get k).list.getLast? = some .fence) →
      exec (.pointFence tag [lineCode (lineOf k), byteOf (addressOf k)]) s =
        .next (replyBytes 52 tag .ok [1, byteOf (s.outputs.get k).list.length] (acceptRequest 52 tag s))) ∧
    (isScanned (s.stations.get k).state = true →
      ¬ ((s.outputs.get k).list = [] ∧ (s.outputs.get k).inFlight = none) →
      (s.outputs.get k).list.getLast? ≠ some .fence →
      exec (.pointFence tag [lineCode (lineOf k), byteOf (addressOf k)]) s =
        .next (if 14 ≤ (s.outputs.get k).list.length then
            replyBytes 52 tag .queueFull [] (acceptRequest 52 tag s)
          else replyBytes 52 tag .ok [0, byteOf ((s.outputs.get k).list.length + 1)]
            { acceptRequest 52 tag s with outputs := s.outputs.set k { s.outputs.get k with
                list := (s.outputs.get k).list ++ [.fence] } }))

/-- R101, R168: what a lamp line and a cab lamp do when a half-period ends; the lamp line's point follows its mode. (The
clock at an expiry and the start of the next half-period are log entries 3 and 37.) -/
def Obligations.LampHalfPeriodsEnd : Prop :=
  (∀ (s : State) (k : Fin 6) (d : Nat), s.held = false → (lampAt s k.val).timer = some d →
    s.lampLines.length = 6 → ImageWhole s →
    ∃ t, exec (.lampHalfPeriodExpiry k) s = .next t ∧ t.now = max s.now d ∧
      lampAt t k.val = (match (lampAt s k.val).held with
        | none => { lampAt s k.val with
            level := !(lampAt s k.val).level
            timer := some (t.now + if (lampAt s k.val).mode = .flashFast then 125 else 500) }
        | some .off => ⟨.off, none, false, none⟩
        | some .on => ⟨.on, none, true, none⟩
        | some .flashSlow => ⟨.flashSlow, none, !(lampAt s k.val).level, some (t.now + 500)⟩
        | some .flashFast => ⟨.flashFast, none, !(lampAt s k.val).level, some (t.now + 125)⟩) ∧
      (pointAt t (10 + k.val)).value = ((lampModeCode (lampAt t k.val).mode).toNat : Int) ∧
      (∀ j, j ≠ k.val → lampAt t j = lampAt s j) ∧
      (∀ i, i ≠ 10 + k.val → pointAt t i = pointAt s i) ∧
      t.stations = s.stations ∧ t.outputs = s.outputs ∧ t.groups = s.groups ∧ t.owners = s.owners) ∧
  (∀ (s : State) (k : Fin 12) (d : Nat), s.held = false → (cabLamp s k.val).timer = some d →
    s.cab.lamps.length = 12 →
    ∃ t, exec (.cabLampHalfPeriodExpiry k) s = .next t ∧ t.now = max s.now d ∧
      cabLamp t k.val = (match (cabLamp s k.val).held with
        | none => { cabLamp s k.val with
            level := !(cabLamp s k.val).level
            timer := some (t.now + if (cabLamp s k.val).mode = .flashFast then 125 else 500) }
        | some .off => ⟨.off, none, false, none⟩
        | some .on => ⟨.on, none, true, none⟩
        | some .flashSlow => ⟨.flashSlow, none, !(cabLamp s k.val).level, some (t.now + 500)⟩
        | some .flashFast => ⟨.flashFast, none, !(cabLamp s k.val).level, some (t.now + 125)⟩) ∧
      (∀ j, j ≠ k.val → cabLamp t j = cabLamp s j) ∧
      t.stations = s.stations ∧ t.lines = s.lines ∧ t.cab.alert = s.cab.alert ∧ t.cab.copies = s.cab.copies)

/-- R36, R37, R74, R75: a flip of a local input is a change set of its one point, and PLUG's also reaches the S-line
engine while plug_used is 1; a sample that flips no input records the levels and clears or raises each counter; in
any sample each input whose level has stood for its qualification time flips, and the others only count. (That a
sample delivers its own flips is log entry 29, that it moves the clock is log entry 3, the order of the receivers is
log entry 8 and that of the inputs log entry 43.) -/
def Obligations.LocalInputsSampledAndFlipped : Prop :=
  (∀ (s : State) (k : Fin 8) (level : Bool), s.held = false → s.hub.change = none →
    ∀ u : State,
      u = deliverPoints (s.points.set k.val { pointAt s k.val with
        value := level.toNat, raw := some (BitVec.ofNat 16 level.toNat), counter := 0 }) s →
      ((k ≠ 0 ∨ s.store.working.plugUsed = false ∨ (pointAt s 0).value = level.toNat) →
        exec (.localInputFlip k level) s = .next u) ∧
      (k = 0 → s.store.working.plugUsed = true → (pointAt s 0).value ≠ level.toNat →
        exec (.localInputFlip k level) s = .next (if level then plugRise u else plugFall u))) ∧
  (∀ (s : State) (lin : Byte), s.held = false → s.hub.change = none → ImageWhole s →
    (∀ k, k < 8 → (pointAt s k).value = (lin.getLsbD k).toNat ∨
      (pointAt s k).counter + 1 < s.store.working.qualifyMs.getD k 20) →
    ∃ t, exec (.localInputSample lin) s = .next t ∧ t = { s with now := s.now + 1, points := t.points } ∧
      ∀ i, pointAt t i = (if i < 8 then { pointAt s i with
          raw := some (BitVec.ofNat 16 (lin.getLsbD i).toNat)
          counter := if (pointAt s i).value = (lin.getLsbD i).toNat then 0 else (pointAt s i).counter + 1 }
        else pointAt s i)) ∧
  (∀ (s : State) (lin : Byte), s.held = false → s.hub.change = none →
    exec (.localInputSample lin) s = .next ([0, 1, 2, 3, 4, 5, 6, 7].foldl (fun (u : State) (k : Nat) =>
      let level := lin.getLsbD k
      let p := { pointAt u k with raw := some (BitVec.ofNat 16 level.toNat) }
      if p.value = (level.toNat : Int) then { u with points := u.points.set k { p with counter := 0 } }
      else if p.counter + 1 < u.store.working.qualifyMs.getD k 20 then
        { u with points := u.points.set k { p with counter := p.counter + 1 } }
      else
        let v := deliverPoints (u.points.set k { p with value := level.toNat, counter := 0 }) u
        if k = 0 ∧ u.store.working.plugUsed = true then (if level then plugRise v else plugFall v) else v)
      { s with now := s.now + 1 }))

/-! ### The field lines -/

/-- R17, R18, R70, R71, R201: a cycle start takes up the accepted settings and the next schedule together and lays the
cycle out; the stale limits of the line's mapped stations follow the new period, each point of their windows ages by
one and is STALE beyond its limit, as one change set for each window, and the raw records age; the slots follow one
another and their lengths add up to the schedule's cost. (The order of the windows is log entry 43, that of a change
set's receivers log entry 8; that the C-line's windows age before the cab's lamp writes are offered is log entry 47.) -/
def Obligations.CycleStartTakesUp : Prop :=
  (∀ (s : State) (l : Line), s.held = false →
    ∃ t, exec (.cycleStart l) s = .next t ∧
      t.lines.get l = { s.lines.get l with
        inForce := (s.lines.get l).awaiting.getD (s.lines.get l).inForce
        awaiting := none
        active := (s.lines.get l).next
        running := true
        plan := layoutFrom s ((s.lines.get l).awaiting.getD (s.lines.get l).inForce) 0 (s.lines.get l).next
        slot := none } ∧
      (∀ l', l' ≠ l → t.lines.get l' = s.lines.get l') ∧ t.stations = s.stations ∧ t.store = s.store ∧
      (∀ k, t.raw.get k = if lineOf k = l then
        (s.raw.get k).map (fun r => { r with age := min 255 (r.age + 1) }) else s.raw.get k) ∧
      (∀ k, t.staleLimits.get k = if lineOf k = l ∧ isMapped (s.stations.get k).state = true then
        (match profileOf s k with
          | some p => some (max 1 (min 250 (p.maxAgeMs * 1000 / (t.lines.get l).inForce.period)))
          | none => s.staleLimits.get k) else s.staleLimits.get k) ∧
      ∀ w : State, w = { s with lines := t.lines } →
        t = (fun u => if l = .c then offerCabWrites u else u) ((lineStations l).foldl (fun (u : State) (k : Stn) =>
          let v := { u with raw := u.raw.set k (t.raw.get k), staleLimits := u.staleLimits.set k (t.staleLimits.get k) }
          match profileOf s k with
          | none => v
          | some p =>
            if isMapped (s.stations.get k).state = false then v
            else
              let limit := max 1 (min 250 (p.maxAgeMs * 1000 / (t.lines.get l).inForce.period))
              deliverPoints (u.points.mapIdx (fun i q =>
                if i < p.base ∨ p.base + windowSize p ≤ i then q
                else
                  { q with
                    age := min 255 (q.age + 1)
                    quality :=
                      if limit < min 255 (q.age + 1) ∧
                        (((q.kind = .din ∨ q.kind = .ain) ∧ (q.quality = .good ∨ q.quality = .fault)) ∨
                          (q.kind = .dout ∧ (q.quality = .good ∨ q.quality = .pending)))
                      then .stale else q.quality })) v) w)) ∧
  (∀ (s : State) (ls : LineSettings) (a : Nat) (sched : List Stn),
    ((layoutFrom s ls a sched).map (·.length)).sum = scheduleCost s ls sched ∧
    (layoutFrom s ls a sched).IsChain (fun x y => y.start = x.start + x.length))

/-- R20 to R22, R41, R89: what each slot start sends. R1, R2, R4: what the pins of the line show `t` REFCLK periods after
that, `d` of them to a bit: the driver is enabled 3 byte times after the start, each byte of the request follows the
one before as a start bit at space, its eight bits least significant first and a stop bit at mark, and then the
receiver is open until the slot's end; with no slot, no cycle or the RESET pin low the driver is disabled, the
transmit pin at mark and the receiver closed. -/
def Obligations.SlotStartsSendRequest : Prop :=
  (∀ (s : State) (l : Line) (t : Nat),
    (s.held = true ∨ (s.lines.get l).running = false ∨ (s.lines.get l).slot = none →
      driverPin s l t = false ∧ transmitPin s l t = true ∧ receiverOpen s l t = false) ∧
    (∀ x d, s.held = false → (s.lines.get l).running = true → (s.lines.get l).slot = some x →
      d = x.settings.divisor →
      (t < 30 * d → driverPin s l t = false ∧ transmitPin s l t = true ∧ receiverOpen s l t = false) ∧
      (∀ i b j, x.request[i]? = some b → j < 10 → (30 + 10 * i + j) * d ≤ t → t < (30 + 10 * i + j + 1) * d →
        driverPin s l t = true ∧ receiverOpen s l t = false ∧
        transmitPin s l t = (if j = 0 then false else if j = 9 then true else b.getLsbD (j - 1))) ∧
      ((30 + 10 * x.request.length) * d ≤ t →
        driverPin s l t = false ∧ transmitPin s l t = true ∧
        receiverOpen s l t = decide (t < 48 * x.length)))) ∧
  ∀ (s : State) (n : Nat), s.held = false →
    (∀ k, plannedLength (s.lines.get (lineOf k)) (.station k) = some n →
      (isScanned (s.stations.get k).state = true →
        exec (.stationSlotStart k) s = .next { s with
          outputs := s.outputs.set k (formBatch (s.outputs.get k))
          lines := s.lines.set (lineOf k) { s.lines.get (lineOf k) with
            slot := some ⟨.station k, k,
              fieldFrame false (addressOf k) .scan (scanPayload (formBatch (s.outputs.get k))),
              (s.lines.get (lineOf k)).inForce, n, false, false⟩ } }) ∧
      (isScanned (s.stations.get k).state = false →
        exec (.stationSlotStart k) s =
          .next { s with lines := s.lines.set (lineOf k) { s.lines.get (lineOf k) with slot := none } })) ∧
    (∀ l, plannedLength (s.lines.get l) .probe = some n →
      (∀ k, rotate (s.lines.get l).probePtr (candidates s l) = some k →
        exec (.probeSlotStart l) s = .next { s with lines := s.lines.set l { s.lines.get l with
          probePtr := addressOf k
          slot := some ⟨.probe, k, fieldFrame false (addressOf k) .roll [], (s.lines.get l).inForce, n,
            false, false⟩ } }) ∧
      (rotate (s.lines.get l).probePtr (candidates s l) = none →
        exec (.probeSlotStart l) s = .next { s with lines := s.lines.set l { s.lines.get l with slot := none } })) ∧
    (∀ l, plannedLength (s.lines.get l) .param = some n →
      (∀ k x, rotate (s.lines.get l).paramPtr (withTransfer s l) = some k →
        (s.stations.get k).transfer = some x →
        exec (.paramSlotStart l) s = .next { s with
          stations := s.stations.set k { s.stations.get k with
            transfer := some { x with attempts := x.attempts + 1 } }
          lines := s.lines.set l { s.lines.get l with
            paramPtr := addressOf k
            slot := some ⟨.param, k, fieldFrame false (addressOf k)
              (match x.kind with
                | .read => .paramGet
                | .write => .paramPut)
              (be16 x.paramAddr ++ [byteOf x.count] ++ match x.kind with
                | .read => []
                | .write => x.data), (s.lines.get l).inForce, n, false, false⟩ } }) ∧
      (rotate (s.lines.get l).paramPtr (withTransfer s l) = none →
        exec (.paramSlotStart l) s = .next { s with lines := s.lines.set l { s.lines.get l with slot := none } }))

/-- R30: a good SCAN_ANSWER makes the station ONLINE with no misses, and changes no other station record. The report of
that move, which an ONLINE station does not make, gives the state `v`, and the output writer's part the state `u`.
R91, R93, R146: the batch in flight whose number is echoed is acknowledged, the outputs that no later write carries
are settled, the operation whose write the batch held is driven, and with OUTPUTS_SAFE the intended values are
written again. R201: in COMMISSION mode the next state is `u` with the samples as the raw record. R67 to R69: in
BASIC and RUN mode it is `u` with the samples, and the ages of the outputs, delivered as one change set of the
window. (The order of these parts is log entry 13, that of the set's receivers log entry 8; that a station without
a profile there changes nothing more is log entry 33.) -/
def Obligations.GoodScanMakesOnline : Prop :=
  ∀ (s : State) (k : Stn) (x : Slot) (rx : List RxByte) (a : ScanReport),
    s.held = false → s.hub.change = none → (s.lines.get (lineOf k)).slot = some x →
    x.kind = .station k → x.stn = k → x.judged = false → x.void = false →
    isScanned (s.stations.get k).state = true →
    judge x .scanAnswer (readScan (inputCount s k)) rx = .ok a →
    ∃ t v u : State, exec (.scanAnswerGood (lineOf k) rx) s = .next t ∧
      t.stations = s.stations.set k { s.stations.get k with
        state := .online, misses := 0, limitNoted := false, lastCause := .good } ∧
      t.hub = s.hub ∧ t.store = s.store ∧
      v = reportScanned k (s.stations.get k).state { s with
        lines := s.lines.set (lineOf k) { s.lines.get (lineOf k) with slot := some { x with judged := true } }
        stations := t.stations } ∧
      ((s.stations.get k).state = .online → v.outputs = s.outputs ∧ v.ops = s.ops ∧ v.points = s.points) ∧
      u = answerOutputs k a.echo a.outputsSafe v ∧
      (s.hub.mode = .commission →
        t = { u with raw := u.raw.set k (some ⟨some a.samples, a.outputsSafe, 0⟩) }) ∧
      (s.hub.mode ≠ .commission → profileOf s k = none → t = u) ∧
      (∀ o : OutState,
        o = (match (v.outputs.get k).inFlight with
          | some b =>
            if b.number = a.echo then
              { v.outputs.get k with lastEcho := a.echo, inFlight := none, lastAck := a.echo }
            else { v.outputs.get k with lastEcho := a.echo }
          | none => { v.outputs.get k with lastEcho := a.echo }) →
        (a.outputsSafe = false → u.outputs.get k = o) ∧
        (a.outputsSafe = true → u.outputs.get k =
          { o with
            list := ((indexed 0 o.intended).drop 8).map (fun w => .write w.1 w.2)
            inFlight := if o.intended = [] then none
              else some ⟨nextNumber o, (indexed 0 o.intended).take 8⟩
            lastAssigned := if o.intended = [] then o.lastAssigned else nextNumber o })) ∧
      (∀ k', k' ≠ k → u.outputs.get k' = v.outputs.get k') ∧
      (∀ p b j y, profileOf s k = some p → (v.outputs.get k).inFlight = some b → b.number = a.echo →
        (j, y) ∈ b.writes → hasWrite j (v.outputs.get k).list = false → a.outputsSafe = false →
        outputPoint p j < s.points.length →
        (pointAt u (outputPoint p j)).writeOut = false ∧ (pointAt u (outputPoint p j)).quality ≠ .pending) ∧
      (∀ g, v.ops.get g = none → u.ops.get g = none) ∧
      (∀ g r, v.ops.get g = some r → ∀ acked : Prop,
        (acked ↔ ∃ b gp j, (v.outputs.get k).inFlight = some b ∧ b.number = a.echo ∧
          (profileOf s k).bind (·.group) = some gp ∧ driveOutput gp r.kind = some j ∧ (j, 1) ∈ b.writes) →
        (r.station = k → r.phase = .queued → acked → u.ops.get g = some { r with phase := .driving }) ∧
        (r.station ≠ k ∨ r.phase ≠ .queued ∨ ¬acked → u.ops.get g = some r)) ∧
      (s.hub.mode ≠ .commission → ∀ p, profileOf s k = some p →
          t = deliverPoints (u.points.mapIdx (fun i q =>
            if i < p.base ∨ p.base + windowSize p ≤ i then q
            else
              match p.inputs[i - p.base]?, a.samples[i - p.base]? with
              | some d, some raw =>
                match d.kind with
                | .din qual =>
                  if 1 < raw.toNat then { q with raw := some raw }
                  else if q.quality = .waiting ∨ q.quality = .stale ∨
                      (q.quality = .good ∧ q.value ≠ raw.toNat ∧ qual ≤ q.counter + 1) then
                    { q with raw := some raw, age := 0, value := raw.toNat, counter := 0, quality := .good }
                  else if q.quality = .good then
                    { q with
                      raw := some raw, age := 0
                      counter := if q.value = raw.toNat then 0 else q.counter + 1 }
                  else { q with raw := some raw, age := 0 }
                | .ain offset gain =>
                  if 4095 < raw.toNat then
                    { q with raw := some raw, age := 0, counter := 0, quality := .fault }
                  else
                    { q with
                      raw := some raw, age := 0, counter := 0, quality := .good
                      value := max (-32768) (min 32767 (((raw.toNat : Int) - offset) * gain / 1024)) }
              | some _, none => q
              | none, _ =>
                { q with
                  age := 0
                  quality := if q.quality = .stale then (if q.writeOut then .pending else .good)
                    else q.quality })) u)

/-- R14 to R16, R208: how a slot's bytes are judged. A frame of R207 from the station asked, begun inside the answer
window, its bytes one byte time apart and all arrived by the slot's end, is read back from its payload, whatever
stray bytes stand before and behind it; with no byte that begins the answer the verdict is TIMEOUT; an answer cut off
by the slot's end or with a length above 64 is a CHECK miss, one with a framing error or a wrong check too, and
then a wrong address, direction or kind, or a payload that is not well formed, is a MISMATCH. R31 to R34, R118, R174:
what a missed SCAN does, below the limit and at the limit under each policy, with all that leaving the scanned states
does, the alert's reasons among it. (That a miss below the limit keeps the last cause is log entry 14.) -/
def Obligations.MissedScanFollowsPolicy : Prop :=
  (∀ (α : Type) (x : Slot) (kind : FrameKind) (read : List Byte → Option α) (noise : List RxByte),
    (∀ b ∈ noise, b.value ≠ 165 ∨ b.start < windowOpens x ∨ windowCloses x < b.start) →
    judge x kind read noise = .error .timeout ∧
    ∀ (sync : RxByte) (answer after : List RxByte),
      sync.value = 165 → windowOpens x ≤ sync.start → sync.start ≤ windowCloses x →
      (∀ (payload : List Byte), payload.length ≤ 64 →
        sync :: answer = (indexed 0 (fieldFrame true (addressOf x.stn) kind payload)).map (fun w =>
          (⟨sync.start + w.1 * byteTime x, w.2, true⟩ : RxByte)) →
        sync.start + (6 + payload.length) * byteTime x ≤ slotEnds x →
        judge x kind read (noise ++ sync :: answer ++ after) =
          (match read payload with
            | some v => .ok v
            | none => .error .mismatch)) ∧
      (∀ (addr kindByte len : RxByte) (payload check : List RxByte),
        answer = addr :: kindByte :: len :: (payload ++ check) →
        payload.length = len.value.toNat → check.length = 2 →
        ((∃ b ∈ sync :: answer, slotEnds x < b.start + byteTime x) →
          judge x kind read (noise ++ sync :: answer ++ after) = .error .check) ∧
        ((∀ b ∈ sync :: answer, b.start + byteTime x ≤ slotEnds x) →
          judge x kind read (noise ++ sync :: answer ++ after) =
            if 64 < len.value.toNat ∨ (∃ b ∈ sync :: answer, b.stopOk = false) ∨
                checkBytes ((addr :: kindByte :: len :: payload).map (·.value)) ≠ check.map (·.value) then
              .error .check
            else if addr.value ≠ byteOf (addressOf x.stn + 128) ∨ kindByte.value ≠ frameKindCode kind then
              .error .mismatch
            else
              match read (payload.map (·.value)) with
              | some v => .ok v
              | none => .error .mismatch))) ∧
  (∀ (n : Nat) (echo status : Byte) (ws : List Word),
    readScan n (echo :: status :: ws.flatMap (fun w => be16 w.toNat)) =
      if ws.length = n ∧ echo.toNat ≤ 15 then some ⟨BitVec.ofNat 4 echo.toNat, status.getLsbD 0, ws⟩ else none) ∧
  ∀ (s : State) (k : Stn) (x : Slot) (rx : List RxByte) (why : MissReason),
    s.held = false → s.hub.change = none → (s.lines.get (lineOf k)).slot = some x →
    x.kind = .station k → x.stn = k → x.judged = false → x.void = false →
    isScanned (s.stations.get k).state = true →
    judge x .scanAnswer (readScan (inputCount s k)) rx = .error why →
    ∃ t, exec (.scanMiss (lineOf k) rx) s = .next t ∧
      (∀ k', k' ≠ k → t.stations.get k' = s.stations.get k') ∧
      ((s.stations.get k).misses + 1 < (missRule s k).1 →
        t.stations.get k = { s.stations.get k with
          state := .degraded, misses := (s.stations.get k).misses + 1, lastMiss := some why }) ∧
      ((missRule s k).1 ≤ (s.stations.get k).misses + 1 →
        ((missRule s k).2 = .latch →
          (t.stations.get k).state = .fault ∧ (t.stations.get k).lastCause = .missLimit ∧
          Departed k false s t) ∧
        ((missRule s k).2 = .retry →
          (t.stations.get k).state = .holdoff ∧ (t.stations.get k).lastCause = .missLimit ∧
          (t.stations.get k).holdoffExpiry = some (s.now + ((profileOf s k).map (·.retryMs)).getD 1000) ∧
          Departed k false s t) ∧
        ((missRule s k).2 = .report →
          (t.stations.get k).state = .degraded ∧ (t.stations.get k).limitNoted = true) ∧
        ((missRule s k).2 = .ignore →
          (t.stations.get k).state = .degraded ∧
          (t.stations.get k).limitNoted = (s.stations.get k).limitNoted) ∧
        (t.stations.get k).misses = (missRule s k).1 ∧ (t.stations.get k).lastMiss = some why ∧
        ((missRule s k).2 = .latch ∨ (missRule s k).2 = .retry → ∀ g, groupAt s k = some g →
          (isOnline (s.stations.get k).state = true → (s.groups.get g).lock = .allLocked →
            (s.groups.get g).landed ≠ .allLanded →
            t.cab.alert.reasons.linkLostLoaded = true ∧ t.cab.alert.state = .sounding) ∧
          (∀ r p, s.ops.get g = some r → profileOf s k = some p →
            (r.landingRequired = false ∨ ∃ c ∈ (s.groups.get g).corners,
              p.base ≤ c.landed ∧ c.landed < p.base + windowSize p ∧ c.landed < s.points.length) →
            t.cab.alert.reasons.opAborted = true ∧ t.cab.alert.state = .sounding) ∧
          ((missRule s k).2 = .latch → lineOf k = .s →
            t.cab.alert.reasons.stationFault = true ∧ t.cab.alert.state = .sounding)))

/-- R21, R26 to R29, R64, R93, R97, R103: a good ROLL_ANSWER stores the identity and the station joins or is refused;
an admission under a profile maps its window, binds its group and writes its outputs' initial values as batch 1; an
answer that is no longer wanted, and a missed probe, leave every record as it stands. The cab station's own output
record after its admission, into which the cab service at once offers its lamps' writes (R172), is left out; an
output's value and write-outstanding mark are said of every point that is not one of that station's lamps, so of
every point of a window from 48 up while C 1 has the cab profile. (That the raw record of a COMMISSION admission
starts with OUTPUTS_SAFE 0 and age 0 is the model's choice, log entry 21; that a second station of a type code is
refused by R26's order of checks, ahead of R57's OVERLAP, is log entry 46.) -/
def Obligations.ProbeVerdictsDecideAdmission : Prop :=
  ∀ (s : State) (k : Stn) (x : Slot) (rx : List RxByte),
    s.held = false → (s.lines.get (lineOf k)).slot = some x → x.kind = .probe → x.stn = k → x.judged = false →
    (∀ i u, judge x .rollAnswer readRoll rx = .ok i → isCandidate s k = true → s.hub.change = none →
      u = updStation k (fun r => { r with identity := some i })
        (updLine (lineOf k) (fun e => { e with slot := some { x with judged := true } }) s) →
      (∀ ref p, s.hub.mode ≠ .commission → admissionCheck u k i = .ok ref → resolveProfile s ref = some p →
        ∃ t, exec (.rollAnswerGood (lineOf k) rx) s = .next t ∧
          t.stations = s.stations.set k { s.stations.get k with
            identity := some i, state := .joining, refusal := none, profile := some ref, misses := 0,
            limitNoted := false, lastCause := .admitted } ∧
          (t.lines.get (lineOf k)).next = insertStation k (s.lines.get (lineOf k)).next ∧
          t.staleLimits.get k = some (max 1 (min 250
            (p.maxAgeMs * 1000 / (s.lines.get (lineOf k)).inForce.period))) ∧
          (∀ i j, i = p.base + j → i < s.points.length →
            (∀ d, p.inputs[j]? = some d →
              (pointAt t i).kind = (match d.kind with
                | .din _ => .din
                | .ain _ _ => .ain) ∧
              (pointAt t i).home = homeOf k j ∧ (pointAt t i).raw = none ∧ (pointAt t i).quality = .waiting ∧
              (pointAt t i).counter = 0 ∧ (pointAt t i).age = 0 ∧ (pointAt t i).owner = .free) ∧
            (∀ o j', p.inputs[j]? = none → j' = j - p.inputs.length → p.outputs[j']? = some o →
              (pointAt t i).kind = .dout ∧ (pointAt t i).home = homeOf k j' ∧ (pointAt t i).raw = none ∧
              (pointAt t i).quality = .pending ∧ (pointAt t i).counter = 0 ∧ (pointAt t i).age = 0 ∧
              (pointAt t i).owner = outputTag k p j' ∧
              (16 ≤ i → k ≠ .c1 →
                (isScanned s.stations.c1.state = false ∨
                  ∀ q n, profileOf s .c1 = some q → n < 12 → i ≠ outputPoint q n) →
                (pointAt t i).value = o.initial.toNat ∧ (pointAt t i).writeOut = true))) ∧
          (∀ n, n < 12 → 16 ≤ outputPoint cabProfile n ∧ outputPoint cabProfile n < 48) ∧
          (∀ gp, lineOf k = .s → p.group = some gp →
            (t.groups.get gp.role).bound = true ∧ (t.groups.get gp.role).station = some k ∧
            (t.groups.get gp.role).corners.map (fun c => (c.landed, c.locked, c.unlocked)) =
              gp.corners.map (fun c => (p.base + c.landed, p.base + c.locked, p.base + c.unlocked)) ∧
            (t.groups.get gp.role).position = gp.size.map (fun z => p.base + z.position) ∧
            (t.groups.get gp.role).trip = false ∧ (t.groups.get gp.role).permit = false ∧
            t.permitPins.get gp.role = false) ∧
          (k ≠ .c1 → ∀ ws : List Word, ws = p.outputs.map (fun o => BitVec.ofNat 16 o.initial.toNat) →
            t.outputs.get k = if ws = [] then ⟨[], none, 0, 0, 0, []⟩ else
              ⟨((indexed 0 ws).drop 8).map (fun w => .write w.1 w.2), some ⟨1, (indexed 0 ws).take 8⟩, 1, 0, 0, ws⟩)) ∧
      (∀ why, s.hub.mode ≠ .commission → admissionCheck u k i = .error why →
        ∃ t, exec (.rollAnswerGood (lineOf k) rx) s = .next t ∧
          t.stations = s.stations.set k { s.stations.get k with
            identity := some i, state := .refused, refusal := some why, lastCause := .refused } ∧
          (t.lines.get (lineOf k)).next = (s.lines.get (lineOf k)).next) ∧
      (s.hub.mode = .commission → budgetFits u k i.inputs = true →
        ∃ t, exec (.rollAnswerGood (lineOf k) rx) s = .next t ∧
          t.stations = s.stations.set k { s.stations.get k with
            identity := some i, state := .joining, refusal := none, profile := none, misses := 0,
            limitNoted := false, lastCause := .admitted } ∧
          t.raw.get k = some ⟨none, false, 0⟩ ∧
          t.outputs.get k = ⟨[], none, 0, 0, 0, List.replicate i.outputs 0⟩) ∧
      (s.hub.mode = .commission → budgetFits u k i.inputs = false →
        ∃ t, exec (.rollAnswerGood (lineOf k) rx) s = .next t ∧
          t.stations = s.stations.set k { s.stations.get k with
            identity := some i, state := .refused, refusal := some .budget, lastCause := .refused } ∧
          (t.lines.get (lineOf k)).next = (s.lines.get (lineOf k)).next)) ∧
    (∀ i, judge x .rollAnswer readRoll rx = .ok i → (isCandidate s k = false ∨ s.hub.change.isSome = true) →
      exec (.rollAnswerGood (lineOf k) rx) s = .next
        (updLine (lineOf k) (fun e => { e with slot := some { x with judged := true } }) s)) ∧
    (∀ why, judge x .rollAnswer readRoll rx = .error why →
      exec (.probeMiss (lineOf k) rx) s = .next
        (updLine (lineOf k) (fun e => { e with slot := some { x with judged := true } }) s))

/-- R41: how each verdict of a parameter slot settles its attempt. -/
def Obligations.ParamVerdictsSettleTransfer : Prop :=
  ∀ (s : State) (k : Stn) (x : Slot) (rx : List RxByte) (tr : Transfer) (u : State),
    s.held = false → s.hub.change = none → (s.lines.get (lineOf k)).slot = some x →
    x.kind = .param → x.stn = k → x.judged = false → x.void = false →
    (s.stations.get k).transfer = some tr →
    u = { s with lines := s.lines.set (lineOf k) { s.lines.get (lineOf k) with
      slot := some { x with judged := true } } } →
    (∀ data, judge x .paramAnswer (readParam tr) rx = .ok (.accepted data) →
      exec (.paramAnswerGood (lineOf k) rx) s = .next (replyBytes (transferCode tr.kind) tr.tag .ok data
        { u with stations := s.stations.set k { s.stations.get k with transfer := none } })) ∧
    (judge x .paramAnswer (readParam tr) rx = .ok .rejected →
      exec (.paramAnswerGood (lineOf k) rx) s = .next (replyBytes (transferCode tr.kind) tr.tag .rejected []
        { u with stations := s.stations.set k { s.stations.get k with transfer := none } })) ∧
    (∀ why, judge x .paramAnswer (readParam tr) rx = .error why →
      (tr.attempts < 3 → exec (.paramMiss (lineOf k) rx) s = .next u) ∧
      (3 ≤ tr.attempts →
        exec (.paramMiss (lineOf k) rx) s = .next (replyBytes (transferCode tr.kind) tr.tag .timeout []
          { u with stations := s.stations.set k { s.stations.get k with transfer := none } })))

/-- R32, R34, R35, R38: a HOLDOFF expiry and a STATION_RESTART send the record to ABSENT with all that this does, and
touch no other record. (That a restart keeps the identity is log entry 42, that a record already ABSENT keeps its
last cause log entry 15.) -/
def Obligations.HoldoffAndRestartToAbsent : Prop :=
  (∀ (s : State) (k : Stn) (d : Nat), s.held = false → (s.stations.get k).state = .holdoff →
    (s.stations.get k).holdoffExpiry = some d →
    ∃ t, exec (.holdoffExpiry k) s = .next t ∧
      (t.stations.get k).state = .absent ∧ (t.stations.get k).lastCause = .holdoffEnd ∧
      (t.stations.get k).holdoffExpiry = none ∧ (t.stations.get k).profile = none ∧
      (t.stations.get k).recovery = min 255 ((s.stations.get k).recovery + 1) ∧
      (t.stations.get k).identity = (s.stations.get k).identity ∧
      (∀ k', k' ≠ k → t.stations.get k' = s.stations.get k') ∧ Departed k true s t) ∧
  (∀ (s : State) (tag : Byte) (k : Stn), Ready s tag → s.hub.change = none →
    ((s.stations.get k).state ≠ .absent →
      ∃ t, exec (.stationRestart tag [lineCode (lineOf k), byteOf (addressOf k)]) s = .next t ∧
        (t.stations.get k).state = .absent ∧ (t.stations.get k).lastCause = .restart ∧
        (t.stations.get k).recovery = 0 ∧ (t.stations.get k).profile = none ∧
        (t.stations.get k).transfer = none ∧
        (t.stations.get k).identity = (s.stations.get k).identity ∧
        (∀ k', k' ≠ k → t.stations.get k' = s.stations.get k') ∧ Departed k true s t ∧
        t.port.fifo.getLast? = some ⟨.countedReply, 33, tag, [0], false, false⟩) ∧
    ((s.stations.get k).state = .absent →
      exec (.stationRestart tag [lineCode (lineOf k), byteOf (addressOf k)]) s =
        .next (replyBytes 33 tag .ok [] { acceptRequest 33 tag s with
          stations := s.stations.set k { s.stations.get k with recovery := 0 } })))

/-- R40: a PARAM_READ or PARAM_WRITE that passes becomes the station's transfer and is not yet answered; while a
mode change is pending it is BUSY, and a station not ONLINE or DEGRADED refuses it. -/
def Obligations.ParamRequestBecomesTransfer : Prop :=
  ∀ (s : State) (tag : Byte) (k : Stn) (p1 p0 c : Byte) (data : List Byte), Ready s tag →
    1 ≤ c.toNat → c.toNat ≤ 32 → data.length = c.toNat →
    ∀ rd wr : Instr,
      rd = .paramRead tag [lineCode (lineOf k), byteOf (addressOf k), p1, p0, c] →
      wr = .paramWrite tag ([lineCode (lineOf k), byteOf (addressOf k), p1, p0, c] ++ data) →
      (s.hub.change.isSome = true →
        exec rd s = .next (replyBytes 34 tag .busy [] (acceptRequest 34 tag s)) ∧
        exec wr s = .next (replyBytes 35 tag .busy [] (acceptRequest 35 tag s))) ∧
      (s.hub.change = none → isOnline (s.stations.get k).state = false →
        exec rd s = .next (replyBytes 34 tag .notOnline [] (acceptRequest 34 tag s)) ∧
        exec wr s = .next (replyBytes 35 tag .notOnline [] (acceptRequest 35 tag s))) ∧
      (s.hub.change = none → isOnline (s.stations.get k).state = true →
        (s.stations.get k).transfer = none →
        exec rd s = .next { acceptRequest 34 tag s with stations := s.stations.set k { s.stations.get k with
          transfer := some ⟨.read, u16 p1 p0, c.toNat, [], tag, 0⟩ } } ∧
        exec wr s = .next { acceptRequest 35 tag s with stations := s.stations.set k { s.stations.get k with
          transfer := some ⟨.write, u16 p1 p0, c.toNat, data, tag, 0⟩ } })

/-- R97: RAW_WRITE in COMMISSION mode enters the list, with its FENCE as one unit, or is refused. -/
def Obligations.RawWriteEntersList : Prop :=
  ∀ (s : State) (tag : Byte) (k : Stn) (j v1 v0 : Byte) (fence : Bool), Ready s tag →
    ∀ c : Instr, c = .rawWrite tag [lineCode (lineOf k), byteOf (addressOf k), j, v1, v0, bit fence] →
      (s.hub.mode ≠ .commission → exec c s = .next (replyBytes 37 tag .mode [] (acceptRequest 37 tag s))) ∧
      (s.hub.mode = .commission → isScanned (s.stations.get k).state = true →
        j.toNat < reportedOutputs s k → (s.stations.get k).profile = none →
        ∀ (room : Nat) (w : Word) (entered : List Entry),
          room = (if combines j.toNat (s.outputs.get k).list then 0 else 1) + fence.toNat →
          w = BitVec.ofNat 16 (u16 v1 v0) →
          entered = putWrite j.toNat w (s.outputs.get k).list ++ (if fence then [.fence] else []) →
          (room = 0 ∨ (s.outputs.get k).list.length + room ≤ 14 →
            exec c s = .next (replyBytes 37 tag .ok
              [if combines j.toNat (s.outputs.get k).list then 1 else 0, byteOf entered.length]
              { acceptRequest 37 tag s with outputs := s.outputs.set k { s.outputs.get k with
                  list := entered, intended := (s.outputs.get k).intended.set j.toNat w } })) ∧
          (room ≠ 0 → 14 < (s.outputs.get k).list.length + room →
            exec c s = .next (replyBytes 37 tag .queueFull [] (acceptRequest 37 tag s))))

/-! ### Groups, owners and operations -/

/-- R125, R128: a CLAIM_READ that passes makes the source's mark at the current generation and changes neither
owner nor generation. (The cab's form of a request is log entry 25.) -/
def Obligations.ClaimReadMakesMark : Prop :=
  ∀ (s : State) (g : Group),
    s.hub.mode ≠ .commission → s.hub.change = none → (s.groups.get g).bound = true →
    (∀ tag, Ready s tag →
      exec (.claimRead (.remote tag [groupCode g])) s = .next (replyBytes 65 tag .ok
        ([ownerCode (s.owners.get g).owner] ++ be16 (s.owners.get g).generation.toNat
          ++ be16 s.store.working.claimWindowMs ++ [bit (s.owners.get g).marks.cab.isSome])
        { acceptRequest 65 tag s with owners := s.owners.set g { s.owners.get g with
            marks := ⟨(s.owners.get g).marks.cab,
              some ⟨(s.owners.get g).generation, s.now + s.store.working.claimWindowMs⟩⟩ } })) ∧
    (s.held = false → isOnline s.stations.c1.state = true →
      ∃ t, exec (.claimRead (.cab g)) s = .next t ∧
        t.owners = s.owners.set g { s.owners.get g with
          marks := ⟨some ⟨(s.owners.get g).generation, s.now + s.store.working.claimWindowMs⟩,
            (s.owners.get g).marks.remote⟩ } ∧
        t.results = s.results)

/-- R124, R129, R131: CLAIM_SET with a fresh mark makes the source owner, confirms an owner, or is refused and
loses its mark; CLAIM_RELEASE by the owner leaves the group without one. -/
def Obligations.ClaimSetAndReleaseChangeOwner : Prop :=
  ∀ (s : State) (g : Group) (tag : Byte), Ready s tag →
    (s.hub.mode ≠ .commission → s.hub.change = none → (s.groups.get g).bound = true →
      (∀ m, (s.owners.get g).marks.remote = some m → m.generation = (s.owners.get g).generation →
        ((s.owners.get g).owner ≠ .remote →
          ∃ t, exec (.claimSet (.remote tag [groupCode g])) s = .next t ∧
            t.owners = s.owners.set g ⟨.remote, (s.owners.get g).generation + 1, ⟨none, none⟩⟩ ∧
            t.ops.get g = none ∧
            t.port.fifo.getLast? = some ⟨.countedReply, 66, tag,
              [0, 2] ++ be16 ((s.owners.get g).generation + 1).toNat, false, false⟩) ∧
        ((s.owners.get g).owner = .remote →
          exec (.claimSet (.remote tag [groupCode g])) s = .next (replyBytes 66 tag .ok
            ([2] ++ be16 (s.owners.get g).generation.toNat)
            { acceptRequest 66 tag s with owners := s.owners.set g { s.owners.get g with
                marks := ⟨(s.owners.get g).marks.cab, none⟩ } }))) ∧
      ((s.owners.get g).marks.remote = none →
        exec (.claimSet (.remote tag [groupCode g])) s =
          .next (replyBytes 66 tag .staleClaim [] (acceptRequest 66 tag s)))) ∧
    ((s.owners.get g).owner = .remote →
      ∃ t, exec (.claimRelease (.remote tag [groupCode g])) s = .next t ∧
        t.owners = s.owners.set g ⟨.none, (s.owners.get g).generation + 1, ⟨none, none⟩⟩ ∧
        t.ops.get g = none ∧
        t.port.fifo.getLast? = some ⟨.countedReply, 67, tag,
          0 :: be16 ((s.owners.get g).generation + 1).toNat, false, false⟩) ∧
    ((s.owners.get g).owner ≠ .remote →
      exec (.claimRelease (.remote tag [groupCode g])) s =
        .next (replyBytes 67 tag .notOwner [] (acceptRequest 67 tag s)))

/-- R124, R127, R129, R131, R159: the cab's claims: a fresh mark makes CAB owner, a refusal goes to the CAB slot,
a release by CAB leaves no owner. (The cab's form of a request is log entry 25.) -/
def Obligations.CabClaimsChangeOwner : Prop :=
  ∀ (s : State) (g : Group), s.held = false →
    (∀ m, s.hub.mode ≠ .commission → s.hub.change = none → isOnline s.stations.c1.state = true →
      (s.groups.get g).bound = true → (s.owners.get g).marks.cab = some m →
      m.generation = (s.owners.get g).generation → (s.owners.get g).owner ≠ .cab →
      ∃ t, exec (.claimSet (.cab g)) s = .next t ∧
        t.owners = s.owners.set g ⟨.cab, (s.owners.get g).generation + 1, ⟨none, none⟩⟩ ∧ t.ops.get g = none) ∧
    (s.hub.mode = .commission ∨ s.hub.change.isSome = true →
      ∃ t, exec (.claimSet (.cab g)) s = .next t ∧ t.owners = s.owners ∧
        (t.results.get g).get .cab = some (.refused .claimSet .mode)) ∧
    ((s.owners.get g).owner = .cab →
      ∃ t, exec (.claimRelease (.cab g)) s = .next t ∧
        t.owners = s.owners.set g ⟨.none, (s.owners.get g).generation + 1, ⟨none, none⟩⟩ ∧ t.ops.get g = none) ∧
    ((s.owners.get g).owner ≠ .cab →
      ∃ t, exec (.claimRelease (.cab g)) s = .next t ∧ t.owners = s.owners ∧
        (t.results.get g).get .cab = some (.refused .claimRelease .notOwner))

/-- R125: the expiry of a mark removes it and changes neither owner nor generation nor the other mark. (The clock at an
expiry is log entry 3.) -/
def Obligations.MarkExpiryRemovesMark : Prop :=
  ∀ (s : State) (g : Group) (src : Source) (m : Mark),
    s.held = false → (s.owners.get g).marks.get src = some m →
    ∃ t, exec (.claimMarkExpiry g src) s = .next t ∧ t.now = max s.now m.expiry ∧
      t.owners = s.owners.set g { s.owners.get g with marks := (s.owners.get g).marks.set src none } ∧
      t.ops = s.ops ∧ t.results = s.results ∧ t.groups = s.groups ∧ t.permitPins = s.permitPins ∧
      (src = .remote → t = { s with now := t.now, owners := t.owners })

/-- R140, R141, R143 to R145, R159: OPERATE is refused with nothing recorded, ends at once as DONE, or starts with the
writes of R144 entered (the opposing outputs' zeros in ascending order, a FENCE, the drive output's 1), its record
made, and its reply ahead of the OPERATION notice and the evaluation; the cab's start does the same without a reply,
its refusal going to the CAB result slot. (That the STARTED notice's reason and phase bytes
are 0 is the model's choice, log entry 20; the cab's form is log entry 25.) -/
def Obligations.OperateStartsOperation : Prop :=
  (∀ (gp : GroupPart) (kind : OpKind),
    startEntries gp kind = (match kind, gp.size, gp.flip with
      | .lock, _, _ => [.write gp.unlockOut 0, .fence, .write gp.lockOut 1]
      | .unlock, _, _ => [.write gp.lockOut 0, .fence, .write gp.unlockOut 1]
      | .size20, some z, _ =>
        [.write (min z.out40 z.out45) 0, .write (max z.out40 z.out45) 0, .fence, .write z.out20 1]
      | .size40, some z, _ =>
        [.write (min z.out20 z.out45) 0, .write (max z.out20 z.out45) 0, .fence, .write z.out40 1]
      | .size45, some z, _ =>
        [.write (min z.out20 z.out40) 0, .write (max z.out20 z.out40) 0, .fence, .write z.out45 1]
      | .flipUp, _, some f => [.write f.downOut 0, .fence, .write f.upOut 1]
      | .flipDown, _, some f => [.write f.upOut 0, .fence, .write f.downOut 1]
      | _, _, _ => [])) ∧
  (∀ (s : State) (g : Group) (kind : OpKind), s.held = false →
    (∀ st, checkStart g kind .cab s = .refuse st →
      ∃ t, exec (.operate (.cab g kind)) s = .next t ∧ t.ops = s.ops ∧ t.groups = s.groups ∧ t.owners = s.owners ∧
        (t.results.get g).get .cab =
          some (slotAfter ((s.results.get g).get .cab) (.refused (.op kind) st))) ∧
    (checkStart g kind .cab s = .alreadyDone →
      ∃ t, exec (.operate (.cab g kind)) s = .next t ∧ t.ops = s.ops ∧ t.groups = s.groups ∧
        (t.results.get g).get .cab = some (slotAfter ((s.results.get g).get .cab) (.done kind))) ∧
    (∀ k gp n, checkStart g kind .cab s = .start k gp n →
      exec (.operate (.cab g kind)) s = .next (
        let w := enterEntries k (startEntries gp kind) s
        evaluate g (operationNotice g .cab (opKindCode kind) 0 0 0 0
          (setOp g (some ⟨kind, .cab, s.now, s.now + n, .queued,
            kind == .unlock || (kind == .lock && !(w.groups.get g).trip), k⟩) w))))) ∧
  (∀ (s : State) (tag : Byte), Ready s tag → ∀ payload : List Byte,
    (∀ g kind, payload ≠ [groupCode g, opKindCode kind]) →
    exec (.operate (.remote tag payload)) s = .next (replyBytes 68 tag .badArg [] (acceptRequest 68 tag s))) ∧
  ∀ (s : State) (tag : Byte) (g : Group) (kind : OpKind), Ready s tag →
    ∀ u : State, u = acceptRequest 68 tag s →
      (∀ st, checkStart g kind .remote u = .refuse st →
        exec (.operate (.remote tag [groupCode g, opKindCode kind])) s = .next (replyBytes 68 tag st [] u)) ∧
      (checkStart g kind .remote u = .alreadyDone →
        ∃ t, exec (.operate (.remote tag [groupCode g, opKindCode kind])) s = .next t ∧
          t.outputs = s.outputs ∧ t.ops = s.ops ∧ t.groups = s.groups ∧
          (t.results.get g).get .remote =
            some (slotAfter ((s.results.get g).get .remote) (.done kind)) ∧
          t.port.fifo.getLast? = some ⟨.countedReply, 68, tag, [0, 1, 0, 0, 0], false, false⟩) ∧
      (∀ k gp n, checkStart g kind .remote u = .start k gp n →
        exec (.operate (.remote tag [groupCode g, opKindCode kind])) s = .next (
          let w := enterEntries k (startEntries gp kind) u
          evaluate g (operationNotice g .remote (opKindCode kind) 0 0 0 0
            (replyBytes 68 tag .ok ([0] ++ be16 n ++ [byteOf (w.outputs.get k).list.length])
              (setOp g (some ⟨kind, .remote, s.now, s.now + n, .queued,
                kind == .unlock || (kind == .lock && !(w.groups.get g).trip), k⟩) w)))))

/-- R138, R141 to R143: the checks of a start in their order, with the deadline and the part each kind needs, the
interlock of check 6 and the targets that end a start at once as DONE, kind by kind. -/
def Obligations.StartChecksInOrder : Prop :=
  ∀ (s : State) (g : Group) (kind : OpKind) (src : Source) (interlock target : Prop),
    (interlock ↔ (match kind with
      | .lock => (s.groups.get g).trip = true ∨
        ((s.groups.get g).landed = .allLanded ∧ (s.groups.get g).slackReady = true)
      | .unlock => (s.groups.get g).trip = false ∧
        (s.groups.get g).landed = .allLanded ∧ (s.groups.get g).slackReady = true
      | .size20 | .size40 | .size45 =>
        (s.groups.get g).lock = .allUnlocked ∧ (s.groups.get g).landed = .noneLanded
      | .flipUp | .flipDown => True)) →
    (target ↔ (match kind with
      | .lock => (s.groups.get g).lock = .allLocked
      | .unlock => (s.groups.get g).lock = .allUnlocked
      | .size20 => (s.groups.get g).size = .at20
      | .size40 => (s.groups.get g).size = .at40
      | .size45 => (s.groups.get g).size = .at45
      | .flipUp | .flipDown => False)) →
    (s.hub.mode = .commission ∨ s.hub.change.isSome = true → checkStart g kind src s = .refuse .mode) ∧
    (s.hub.mode ≠ .commission → s.hub.change = none →
      ((s.groups.get g).bound = false ∨ groupOnline s g = false → checkStart g kind src s = .refuse .notOnline) ∧
      ((s.groups.get g).bound = true → groupOnline s g = true →
        (ownerIs s g src = false → checkStart g kind src s = .refuse .notOwner) ∧
        (ownerIs s g src = true → (s.ops.get g).isSome = true → checkStart g kind src s = .refuse .busy) ∧
        (ownerIs s g src = true → s.ops.get g = none → ∀ k gp length,
          (s.groups.get g).station = some k → groupPartOf s g = some gp →
          length = (match kind with
            | .lock | .unlock => some gp.lockMs
            | .size20 | .size40 | .size45 => gp.size.map (·.sizeMs)
            | .flipUp | .flipDown => gp.flip.map (·.flipMs)) →
          (length = none → checkStart g kind src s = .refuse .notFitted) ∧
          (∀ n, length = some n →
            (¬interlock → checkStart g kind src s = .refuse .interlock) ∧
            (interlock →
              (target → checkStart g kind src s = .alreadyDone) ∧
              (¬target →
                checkStart g kind src s =
                  if (if kind = .size20 ∨ kind = .size40 ∨ kind = .size45 then 10 else 11) <
                      (s.outputs.get k).list.length then .refuse .busy
                  else .start k gp n))))))

/-- R148, R154 to R156: OP_STOP by the owner and the deadline end the operation in flight: the drive output is released
by its station's state, the record goes, the result is stored for its source, and a time-out raises the alert with
OP_TIMEOUT, while a stop or a flip that ends DONE raises none; every end by LINK or LIFTED raises OP_ABORTED. The
deadline does nothing where no operation is in flight. No owner changes. (The cab's form of OP_STOP is log entry
25. The release is said of an operation on an S-line station whose group part names its drive output, and the
output's point is not one of the cab's lamps.) -/
def Obligations.StopAndDeadlineEndOperation : Prop :=
  (∀ (s : State) (g : Group), s.ops.get g = none → exec (.operationDeadline g) s = .next s) ∧
  (∀ (s : State) (g : Group) (r : OpRec), s.ops.get g = some r → ∀ (released : State → Prop),
    (∀ t, released t ↔ ∀ gp j o, r.station ≠ .c1 →
      (profileOf s r.station).bind (·.group) = some gp → driveOutput gp r.kind = some j →
      o = s.outputs.get r.station →
      t.outputs.get r.station =
        (match (s.stations.get r.station).state with
          | .joining | .online | .degraded =>
            if combines j o.list = true ∨ o.list.length < 16 then
              { o with list := putWrite j 0 o.list, intended := o.intended.set j 0 }
            else o
          | .holdoff | .fault => { o with intended := o.intended.set j 0 }
          | .absent | .refused => o) ∧
      ∀ p i, profileOf s r.station = some p → i = outputPoint p j → 16 ≤ i → i < s.points.length →
        (isScanned s.stations.c1.state = false ∨
          ∀ q n, profileOf s .c1 = some q → n < 12 → i ≠ outputPoint q n) →
        (isScanned (s.stations.get r.station).state = true → combines j o.list = true ∨ o.list.length < 16 →
          (pointAt t i).value = 0 ∧ (pointAt t i).writeOut = true) ∧
        ((s.stations.get r.station).state = .holdoff ∨ (s.stations.get r.station).state = .fault →
          (pointAt t i).value = 0 ∧ (pointAt t i).quality = (pointAt s i).quality) ∧
        ((s.stations.get r.station).state = .absent → pointAt t i = pointAt s i)) →
    (∀ tag, Ready s tag → (s.owners.get g).owner = .remote →
      ∃ t, exec (.opStop (.remote tag [groupCode g])) s = .next t ∧ t.ops.get g = none ∧ t.owners = s.owners ∧
        (t.results.get g).get r.source =
          some (slotAfter ((s.results.get g).get r.source) (.aborted r.kind .stopped)) ∧
        t.port.fifo.getLast? = some ⟨.countedReply, 69, tag, [0, 0, opKindCode r.kind], false, false⟩ ∧
        released t ∧ t.cab.alert.reasons.opTimeout = s.cab.alert.reasons.opTimeout ∧
        t.cab.alert.reasons.opAborted = s.cab.alert.reasons.opAborted) ∧
    (s.held = false →
      ((s.owners.get g).owner = .cab →
        ∃ t, exec (.opStop (.cab g)) s = .next t ∧ t.ops.get g = none ∧ t.owners = s.owners ∧
          (t.results.get g).get r.source =
            some (slotAfter ((s.results.get g).get r.source) (.aborted r.kind .stopped)) ∧
          released t ∧ t.cab.alert.reasons.opTimeout = s.cab.alert.reasons.opTimeout ∧
          t.cab.alert.reasons.opAborted = s.cab.alert.reasons.opAborted) ∧
      ∃ t, exec (.operationDeadline g) s = .next t ∧ t.ops.get g = none ∧
        t.owners = s.owners ∧ released t ∧
        ((r.kind = .flipUp ∨ r.kind = .flipDown) ∧ r.phase = .driving →
          (t.results.get g).get r.source = some (slotAfter ((s.results.get g).get r.source) (.done r.kind)) ∧
          t.cab.alert.reasons.opTimeout = s.cab.alert.reasons.opTimeout) ∧
        (¬((r.kind = .flipUp ∨ r.kind = .flipDown) ∧ r.phase = .driving) →
          (t.results.get g).get r.source =
            some (slotAfter ((s.results.get g).get r.source) (.timedOut r.kind r.phase)) ∧
          t.cab.alert.reasons.opTimeout = true ∧ t.cab.alert.state = .sounding))) ∧
  (∀ (s : State) (g : Group) (r : OpRec) (why : AbortReason), s.ops.get g = some r →
    (endOperation g (.aborted why) s).cab.alert.reasons.opAborted =
      (s.cab.alert.reasons.opAborted || decide (why = .link ∨ why = .lifted)))

/-- R158, whole: RESULT_TAKE answers the REMOTE slot and empties it, in every mode; a result given afterwards is
stored, one given first is returned under the retention of R157; the CAB slot and the alert stay. -/
def Obligations.ResultTakeWhole : Prop :=
  (∀ (s : State) (tag : Byte) (payload : List Byte), Ready s tag → groupPayload payload = none →
    exec (.resultTake tag payload) s = .next (replyBytes 70 tag .badArg [] (acceptRequest 70 tag s))) ∧
  (∀ (s : State) (tag : Byte) (g : Group), Ready s tag →
    exec (.resultTake tag [groupCode g]) s = .next (replyBytes 70 tag .ok
      (resultBytes ((s.results.get g).get .remote))
      { acceptRequest 70 tag s with
        results := s.results.set g ⟨(s.results.get g).cab, none⟩ })) ∧
  (∀ (s : State) (g : Group) (r : OpResult), (s.results.get g).get .remote = none →
    ((storeResult g .remote r s).results.get g).get .remote = some r) ∧
  (∀ (s : State) (g : Group) (r : OpResult),
    ((storeResult g .remote r s).results.get g).get .remote = some
      (match (s.results.get g).get .remote with
        | none => r
        | some h => if isFailure h = true ∧ isFailure r = false then h else r))

/-- R114: the answers of TRIP_CLEAR in their order, and a clear followed by an evaluation. (That the reply follows the
evaluation's messages is log entry 40; that an unbound group is NO_GROUP while a mode change is pending, against
R199's table, is log entry 51.) -/
def Obligations.TripClearClearsTrip : Prop :=
  ∀ (s : State) (tag : Byte) (g : Group), Ready s tag →
    ∀ u : State, u = acceptRequest 71 tag s →
      ∀ run : Host.Outcome State Fault Refusal,
        run = exec (.tripClear (.remote tag [groupCode g])) s →
        ((s.groups.get g).bound = false → run = .next (replyBytes 71 tag .noGroup [] u)) ∧
        ((s.groups.get g).bound = true →
          ((s.owners.get g).owner ≠ .remote → run = .next (replyBytes 71 tag .notOwner [] u)) ∧
          ((s.owners.get g).owner = .remote →
            ((s.groups.get g).trip = false → run = .next (replyBytes 71 tag .ok [1] u)) ∧
            ((s.groups.get g).trip = true →
              ((s.groups.get g).lock = .allLocked ∨ (s.groups.get g).lock = .allUnlocked →
                (s.groups.get g).landed ≠ .unknown →
                ∃ t, run = .next t ∧
                  t.port.fifo.getLast? = some ⟨.countedReply, 71, tag, [0, 0], false, false⟩ ∧
                  t.owners = s.owners ∧
                  (s.ops.get g = none → t.groups.get g = evalRecord
                    { s with groups := s.groups.set g { s.groups.get g with trip := false } } g)) ∧
              (((s.groups.get g).lock ≠ .allLocked ∧ (s.groups.get g).lock ≠ .allUnlocked) ∨
                (s.groups.get g).landed = .unknown →
                run = .next (replyBytes 71 tag .interlock [] u)))))

/-- R108 to R110, whole: a corner's state from its locked and unlocked points alone; the lock state from the corners'
states; the landed state from the landed points, in the order of each list. -/
def Obligations.CornerLockAndLandedStates : Prop :=
  ∀ (s : State) (g : Group), ∀ r r' : GroupRec, r = s.groups.get g → r' = evalRecord s g →
    (r'.corners = r.corners.map (fun c =>
      { c with state := cornerState (pointAt s c.locked) (pointAt s c.unlocked) })) ∧
    (∀ locked unlocked : Point,
      ((locked.quality ≠ .good ∨ unlocked.quality ≠ .good) → cornerState locked unlocked = .unknown) ∧
      (locked.quality = .good → unlocked.quality = .good →
        (locked.value = 1 → unlocked.value = 0 → cornerState locked unlocked = .locked) ∧
        (locked.value = 0 → unlocked.value = 1 → cornerState locked unlocked = .unlocked) ∧
        (locked.value = 0 → unlocked.value = 0 → cornerState locked unlocked = .moving) ∧
        (locked.value = 1 → unlocked.value = 1 → cornerState locked unlocked = .conflict))) ∧
    ((∃ c ∈ r'.corners, c.state = .unknown) → r'.lock = .unknown) ∧
    ((∀ c ∈ r'.corners, c.state ≠ .unknown) →
      ((∃ c ∈ r'.corners, c.state = .conflict) → r'.lock = .disagree) ∧
      ((∀ c ∈ r'.corners, c.state ≠ .conflict) →
        ((∀ c ∈ r'.corners, c.state = .locked) → r'.lock = .allLocked) ∧
        ((∃ c ∈ r'.corners, c.state ≠ .locked) →
          ((∀ c ∈ r'.corners, c.state = .unlocked) → r'.lock = .allUnlocked) ∧
          ((∃ c ∈ r'.corners, c.state ≠ .unlocked) → r'.lock = .transit)))) ∧
    (r'.lock = .allLocked → ∀ c ∈ r'.corners, c.state = .locked) ∧
    ((∃ c ∈ r.corners, (pointAt s c.landed).quality ≠ .good) → r'.landed = .unknown) ∧
    ((∀ c ∈ r.corners, (pointAt s c.landed).quality = .good) →
      ((∀ c ∈ r.corners, (pointAt s c.landed).value = 1) → r'.landed = .allLanded) ∧
      ((∃ c ∈ r.corners, (pointAt s c.landed).value ≠ 1) →
        ((∀ c ∈ r.corners, (pointAt s c.landed).value = 0) → r'.landed = .noneLanded) ∧
        ((∃ c ∈ r.corners, (pointAt s c.landed).value ≠ 0) → r'.landed = .partly))) ∧
    (∀ i : Nat, (∀ c ∈ r.corners, c.landed = i) → ((pointAt s i).value = 0 ∨ (pointAt s i).value = 1) →
      r'.landed ≠ .partly)

/-- R106, R107, R111, R112, R116: what an evaluation keeps, the size state and slack ready it computes, when it sets the
trip, and when the permit is on. (The three bands share no value while the tolerance is at most 200, as R46 has it.) -/
def Obligations.EvaluationSetsTripAndPermit : Prop :=
  ∀ (s : State) (g : Group), ∀ r r' : GroupRec, r = s.groups.get g → r' = evalRecord s g →
    r'.bound = r.bound ∧ r'.station = r.station ∧ r'.position = r.position ∧
    (∀ gp, groupPartOf s g = some gp →
      (gp.size = none → r'.size = .notFitted) ∧
      (∀ z i, gp.size = some z → r.position = some i → ∀ v tol : Int,
        v = (pointAt s i).value → tol = z.toleranceMm →
        ((pointAt s i).quality ≠ .good → r'.size = .unknown) ∧
        ((pointAt s i).quality = .good → r'.size =
          if 6058 - tol ≤ v ∧ v ≤ 6058 + tol then .at20
          else if 12192 - tol ≤ v ∧ v ≤ 12192 + tol then .at40
          else if 13716 - tol ≤ v ∧ v ≤ 13716 + tol then .at45
          else .between)) ∧
      (r'.slackReady = true ↔ gp.requireSlack = false ∨ (pointAt s 1).value = 1)) ∧
    (r'.trip = true ↔ r.trip = true ∨ (r.lock = .allLocked ∧
      (r'.lock = .transit ∨ r'.lock = .allUnlocked ∨ r'.lock = .disagree) ∧
      (r'.landed = .noneLanded ∨ r'.landed = .partly))) ∧
    (r'.permit = true ↔ s.hub.mode ≠ .commission ∧ r.bound = true ∧
      (∃ k, r.station = some k ∧
        ((s.stations.get k).state = .online ∨ (s.stations.get k).state = .degraded)) ∧
      (r'.lock = .allLocked ∨ r'.lock = .allUnlocked) ∧ r'.landed ≠ .unknown ∧ r'.trip = false ∧
      s.ops.get g = none)

/-! ### The cab service and the alert -/

/-- R161 to R164, R169, R170: a hand-off replaces its group's copy, and for the selected group computes the mirror
again, in which the latest mode of each owned lamp becomes the wanted mode; a change set selects by GROUP_SEL, and a
button edge alone in it is the request of its button for the selected group, after the interlock (log entry 8). -/
def Obligations.CabServiceSelectsAndMirrors : Prop :=
  (∀ (s : State) (g : Group) (f : GroupCopy → GroupCopy) (t : State), s.cab.lamps.length = 12 →
    t = handCopy g f s →
    t.cab.copies = s.cab.copies.set g (f (s.cab.copies.get g)) ∧ t.cab.selected = s.cab.selected ∧
    t.cab.alert = s.cab.alert ∧ t.cab.station = s.cab.station ∧ t.cab.lamps.length = 12 ∧
    (g ≠ s.cab.selected → t.cab.lamps = s.cab.lamps) ∧
    (g = s.cab.selected → ∀ (k : Nat) (c : GroupCopy) (m : LampMode), k < 12 → c = t.cab.copies.get g →
      m = (match k with
        | 0 => if c.lock = .allLocked then .on else .off
        | 1 => if c.lock = .allUnlocked then .on else .off
        | 2 => if c.landed = .allLanded then .on else if c.landed = .partly then .flashSlow else .off
        | 3 => if c.permit then .on else .off
        | 4 => if c.owner = .cab then .on else if c.cabMark then .flashFast
          else if c.owner = .remote then .flashSlow else .off
        | 5 => if c.failure then .on else .off
        | 6 => if s.cab.alert.state = .sounding then .flashFast
          else if s.cab.alert.state = .resting then .flashSlow else .off
        | 7 => if s.cab.alert.state = .sounding then .on else .off
        | 8 => if c.size = .at20 then .on else .off
        | 9 => if c.size = .at40 then .on else .off
        | 10 => if c.size = .at45 then .on else .off
        | _ => if c.trip then .on else .off) →
      cabLamp t k =
        (if (cabLamp s k).held.getD (cabLamp s k).mode = m then cabLamp s k
        else if (cabLamp s k).mode = .flashSlow ∨ (cabLamp s k).mode = .flashFast then
          { cabLamp s k with held := some m }
        else ⟨m, none, decide (m ≠ .off),
          if m = .flashSlow then some (s.now + 500) else if m = .flashFast then some (s.now + 125) else none⟩))) ∧
  (∀ (s : State) (new : List Point) (p q : Point), s.points[28]? = some p → new[28]? = some q →
    (deliverPoints new s).cab.selected =
      if (p.value ≠ q.value ∨ p.quality ≠ q.quality) ∧ q.quality = .good then (if q.value = 0 then .a else .b)
      else s.cab.selected) ∧
  (∀ (s : State) (b : Nat) (p q : Point) (u : State), b < 12 → s.points[16 + b]? = some p →
    u = interlockReads [⟨16 + b, p.value, q.value, p.quality, q.quality,
        if q.quality = .unmapped then p.notify else q.notify⟩] (commitPoints (s.points.set (16 + b) q) s).1 →
    (p.quality = .good → q.quality = .good → p.value = 0 → q.value = 1 →
      deliverPoints (s.points.set (16 + b) q) s =
        match b with
        | 0 => cabOperate s.cab.selected .lock u
        | 1 => cabOperate s.cab.selected .unlock u
        | 2 => cabOperate s.cab.selected .size20 u
        | 3 => cabOperate s.cab.selected .size40 u
        | 4 => cabOperate s.cab.selected .size45 u
        | 5 => cabOperate s.cab.selected .flipUp u
        | 6 => cabOperate s.cab.selected .flipDown u
        | 7 => cabStop s.cab.selected u
        | 8 => if (u.cab.copies.get s.cab.selected).cabMark then cabClaimSet s.cab.selected u
          else cabClaimRead s.cab.selected u
        | 9 => cabClaimRelease s.cab.selected u
        | 10 => takeResult s.cab.selected .cab (ackAlert u)
        | _ => cabTripClear s.cab.selected u) ∧
    ((p.quality ≠ .good ∨ q.quality ≠ .good ∨ p.value ≠ 0 ∨ q.value ≠ 1) →
      (p.value ≠ q.value ∨ p.quality ≠ q.quality) →
      deliverPoints (s.points.set (16 + b) q) s = u))

/-- R174: a raise adds its reason, sounds an alert that is QUIET or RESTING with a fresh sound timer, and leaves the
timer of one that sounds; an evaluation that sets the trip raises LOAD_INSECURE, and no other evaluation does
(R112). R175, R176: an acknowledgement quiets the alert and answers what it held; the sound timer counts and rests or
sounds on; the rest timer sounds again. (The clock at an expiry and the next timer's start are log entries 3 and 37.) -/
def Obligations.AlertAcknowledgedAndTimed : Prop :=
  (∀ (s : State) (why : AlertReason) (reasons : AlertReasons),
    reasons = (match why with
      | .opTimeout => { s.cab.alert.reasons with opTimeout := true }
      | .opAborted => { s.cab.alert.reasons with opAborted := true }
      | .loadInsecure => { s.cab.alert.reasons with loadInsecure := true }
      | .stationFault => { s.cab.alert.reasons with stationFault := true }
      | .linkLostLoaded => { s.cab.alert.reasons with linkLostLoaded := true }) →
    (s.cab.alert.state ≠ .sounding → (raiseAlert why s).cab.alert =
      ⟨.sounding, reasons, s.cab.alert.count, some (s.now + s.store.working.soundMs), none⟩) ∧
    (s.cab.alert.state = .sounding → (raiseAlert why s).cab.alert = { s.cab.alert with reasons := reasons })) ∧
  (∀ (s : State) (g : Group), (s.groups.get g).bound = true →
    (evaluateRecord g s).cab.alert.reasons.loadInsecure =
      (s.cab.alert.reasons.loadInsecure || ((evalRecord s g).trip && !(s.groups.get g).trip)) ∧
    ((evalRecord s g).trip = true → (s.groups.get g).trip = false →
      (evaluateRecord g s).cab.alert.state = .sounding)) ∧
  (∀ (s : State) (tag : Byte), Ready s tag →
    ∃ t, exec (.alertAck tag []) s = .next t ∧
      t.cab.alert = ⟨.quiet, ⟨false, false, false, false, false⟩, 0, none, none⟩ ∧
      t.port.fifo.getLast? = some ⟨.countedReply, 81, tag,
        [0, alertReasonsByte s.cab.alert.reasons, byteOf s.cab.alert.count], false, false⟩ ∧
      t.results = s.results ∧ t.groups = s.groups ∧ t.owners = s.owners ∧ t.ops = s.ops) ∧
  (∀ (s : State) (d : Nat), s.held = false → s.cab.alert.soundTimer = some d →
    ∃ t, exec .soundTimerExpiry s = .next t ∧ t.now = max s.now d ∧
      t.cab.alert = (if 0 < s.store.working.restMs then
          ⟨.resting, s.cab.alert.reasons, min 255 (s.cab.alert.count + 1), none,
            some (t.now + s.store.working.restMs)⟩
        else ⟨.sounding, s.cab.alert.reasons, min 255 (s.cab.alert.count + 1),
            some (t.now + s.store.working.soundMs), none⟩) ∧
      t.groups = s.groups ∧ t.owners = s.owners ∧ t.ops = s.ops) ∧
  (∀ (s : State) (d : Nat), s.held = false → s.cab.alert.restTimer = some d →
    ∃ t, exec .restTimerExpiry s = .next t ∧ t.now = max s.now d ∧
      t.cab.alert = ⟨.sounding, s.cab.alert.reasons, s.cab.alert.count,
        some (t.now + s.store.working.soundMs), none⟩ ∧
      t.groups = s.groups ∧ t.owners = s.owners ∧ t.ops = s.ops)
end

