-- ==== Sys2Proof/Laws/State.lean ====
section
/-! SUPPORT. What each update of one block's part does to each field of the state, and reading one entry of a
container after writing one. -/

namespace Sys2Proof.Machine

open Sys2Proof

/-! ### Containers -/

@[simp] theorem ByLine.get_set_self {α : Type} (x : ByLine α) (l : Line) (a : α) :
    (x.set l a).get l = a := by cases l <;> rfl

theorem ByLine.get_set_ne {α : Type} (x : ByLine α) {l i : Line} (a : α) (h : i ≠ l) :
    (x.set l a).get i = x.get i := by cases l <;> cases i <;> first | rfl | exact absurd rfl h

theorem ByLine.get_set {α : Type} (x : ByLine α) (l i : Line) (a : α) :
    (x.set l a).get i = if i = l then a else x.get i := by cases l <;> cases i <;> rfl

@[simp] theorem ByLine.set_get {α : Type} (x : ByLine α) (l : Line) : x.set l (x.get l) = x := by
  cases l <;> rfl

@[simp] theorem ByLine.set_set {α : Type} (x : ByLine α) (l : Line) (a b : α) :
    (x.set l a).set l b = x.set l b := by cases l <;> rfl

@[simp] theorem ByStn.get_set_self {α : Type} (x : ByStn α) (k : Stn) (a : α) :
    (x.set k a).get k = a := by cases k <;> rfl

theorem ByStn.get_set_ne {α : Type} (x : ByStn α) {k i : Stn} (a : α) (h : i ≠ k) :
    (x.set k a).get i = x.get i := by cases k <;> cases i <;> first | rfl | exact absurd rfl h

theorem ByStn.get_set {α : Type} (x : ByStn α) (k i : Stn) (a : α) :
    (x.set k a).get i = if i = k then a else x.get i := by cases k <;> cases i <;> rfl

@[simp] theorem ByStn.set_get {α : Type} (x : ByStn α) (k : Stn) : x.set k (x.get k) = x := by
  cases k <;> rfl

@[simp] theorem ByStn.set_set {α : Type} (x : ByStn α) (k : Stn) (a b : α) :
    (x.set k a).set k b = x.set k b := by cases k <;> rfl

@[simp] theorem ByGroup.get_set_self {α : Type} (x : ByGroup α) (g : Group) (a : α) :
    (x.set g a).get g = a := by cases g <;> rfl

theorem ByGroup.get_set_ne {α : Type} (x : ByGroup α) {g i : Group} (a : α) (h : i ≠ g) :
    (x.set g a).get i = x.get i := by cases g <;> cases i <;> first | rfl | exact absurd rfl h

theorem ByGroup.get_set {α : Type} (x : ByGroup α) (g i : Group) (a : α) :
    (x.set g a).get i = if i = g then a else x.get i := by cases g <;> cases i <;> rfl

@[simp] theorem ByGroup.set_get {α : Type} (x : ByGroup α) (g : Group) : x.set g (x.get g) = x := by
  cases g <;> rfl

@[simp] theorem ByGroup.set_set {α : Type} (x : ByGroup α) (g : Group) (a b : α) :
    (x.set g a).set g b = x.set g b := by cases g <;> rfl

@[simp] theorem BySource.get_set_self {α : Type} (x : BySource α) (src : Source) (a : α) :
    (x.set src a).get src = a := by cases src <;> rfl

theorem BySource.get_set_ne {α : Type} (x : BySource α) {src i : Source} (a : α) (h : i ≠ src) :
    (x.set src a).get i = x.get i := by cases src <;> cases i <;> first | rfl | exact absurd rfl h

theorem BySource.get_set {α : Type} (x : BySource α) (src i : Source) (a : α) :
    (x.set src a).get i = if i = src then a else x.get i := by cases src <;> cases i <;> rfl

@[simp] theorem BySource.set_get {α : Type} (x : BySource α) (src : Source) : x.set src (x.get src) = x := by
  cases src <;> rfl

@[simp] theorem BySource.set_set {α : Type} (x : BySource α) (src : Source) (a b : α) :
    (x.set src a).set src b = x.set src b := by cases src <;> rfl

@[simp] theorem ByStn.get_all {α : Type} (a : α) (k : Stn) : (ByStn.all a).get k = a := by cases k <;> rfl

/-! ### updLine -/

@[simp] theorem updLine_lines (l : Line) (f : LineEngine → LineEngine) (s : State) :
    (updLine l f s).lines = s.lines.set l (f (s.lines.get l)) := rfl

@[simp] theorem updLine_stations (l : Line) (f : LineEngine → LineEngine) (s : State) :
    (updLine l f s).stations = s.stations := rfl

@[simp] theorem updLine_profiles (l : Line) (f : LineEngine → LineEngine) (s : State) :
    (updLine l f s).profiles = s.profiles := rfl

@[simp] theorem updLine_points (l : Line) (f : LineEngine → LineEngine) (s : State) :
    (updLine l f s).points = s.points := rfl

@[simp] theorem updLine_staleLimits (l : Line) (f : LineEngine → LineEngine) (s : State) :
    (updLine l f s).staleLimits = s.staleLimits := rfl

@[simp] theorem updLine_outputs (l : Line) (f : LineEngine → LineEngine) (s : State) :
    (updLine l f s).outputs = s.outputs := rfl

@[simp] theorem updLine_lampLines (l : Line) (f : LineEngine → LineEngine) (s : State) :
    (updLine l f s).lampLines = s.lampLines := rfl

@[simp] theorem updLine_groups (l : Line) (f : LineEngine → LineEngine) (s : State) :
    (updLine l f s).groups = s.groups := rfl

@[simp] theorem updLine_permitPins (l : Line) (f : LineEngine → LineEngine) (s : State) :
    (updLine l f s).permitPins = s.permitPins := rfl

@[simp] theorem updLine_owners (l : Line) (f : LineEngine → LineEngine) (s : State) :
    (updLine l f s).owners = s.owners := rfl

@[simp] theorem updLine_ops (l : Line) (f : LineEngine → LineEngine) (s : State) :
    (updLine l f s).ops = s.ops := rfl

@[simp] theorem updLine_results (l : Line) (f : LineEngine → LineEngine) (s : State) :
    (updLine l f s).results = s.results := rfl

@[simp] theorem updLine_cab (l : Line) (f : LineEngine → LineEngine) (s : State) :
    (updLine l f s).cab = s.cab := rfl

@[simp] theorem updLine_port (l : Line) (f : LineEngine → LineEngine) (s : State) :
    (updLine l f s).port = s.port := rfl

@[simp] theorem updLine_hub (l : Line) (f : LineEngine → LineEngine) (s : State) :
    (updLine l f s).hub = s.hub := rfl

@[simp] theorem updLine_raw (l : Line) (f : LineEngine → LineEngine) (s : State) :
    (updLine l f s).raw = s.raw := rfl

@[simp] theorem updLine_store (l : Line) (f : LineEngine → LineEngine) (s : State) :
    (updLine l f s).store = s.store := rfl

@[simp] theorem updLine_held (l : Line) (f : LineEngine → LineEngine) (s : State) :
    (updLine l f s).held = s.held := rfl

@[simp] theorem updLine_now (l : Line) (f : LineEngine → LineEngine) (s : State) :
    (updLine l f s).now = s.now := rfl

@[simp] theorem updLine_choices (l : Line) (f : LineEngine → LineEngine) (s : State) :
    (updLine l f s).choices = s.choices := rfl

@[simp] theorem updLine_pending (l : Line) (f : LineEngine → LineEngine) (s : State) :
    (updLine l f s).pending = s.pending := rfl

/-! ### updStation -/

@[simp] theorem updStation_lines (k : Stn) (f : StationRec → StationRec) (s : State) :
    (updStation k f s).lines = s.lines := rfl

@[simp] theorem updStation_stations (k : Stn) (f : StationRec → StationRec) (s : State) :
    (updStation k f s).stations = s.stations.set k (f (s.stations.get k)) := rfl

@[simp] theorem updStation_profiles (k : Stn) (f : StationRec → StationRec) (s : State) :
    (updStation k f s).profiles = s.profiles := rfl

@[simp] theorem updStation_points (k : Stn) (f : StationRec → StationRec) (s : State) :
    (updStation k f s).points = s.points := rfl

@[simp] theorem updStation_staleLimits (k : Stn) (f : StationRec → StationRec) (s : State) :
    (updStation k f s).staleLimits = s.staleLimits := rfl

@[simp] theorem updStation_outputs (k : Stn) (f : StationRec → StationRec) (s : State) :
    (updStation k f s).outputs = s.outputs := rfl

@[simp] theorem updStation_lampLines (k : Stn) (f : StationRec → StationRec) (s : State) :
    (updStation k f s).lampLines = s.lampLines := rfl

@[simp] theorem updStation_groups (k : Stn) (f : StationRec → StationRec) (s : State) :
    (updStation k f s).groups = s.groups := rfl

@[simp] theorem updStation_permitPins (k : Stn) (f : StationRec → StationRec) (s : State) :
    (updStation k f s).permitPins = s.permitPins := rfl

@[simp] theorem updStation_owners (k : Stn) (f : StationRec → StationRec) (s : State) :
    (updStation k f s).owners = s.owners := rfl

@[simp] theorem updStation_ops (k : Stn) (f : StationRec → StationRec) (s : State) :
    (updStation k f s).ops = s.ops := rfl

@[simp] theorem updStation_results (k : Stn) (f : StationRec → StationRec) (s : State) :
    (updStation k f s).results = s.results := rfl

@[simp] theorem updStation_cab (k : Stn) (f : StationRec → StationRec) (s : State) :
    (updStation k f s).cab = s.cab := rfl

@[simp] theorem updStation_port (k : Stn) (f : StationRec → StationRec) (s : State) :
    (updStation k f s).port = s.port := rfl

@[simp] theorem updStation_hub (k : Stn) (f : StationRec → StationRec) (s : State) :
    (updStation k f s).hub = s.hub := rfl

@[simp] theorem updStation_raw (k : Stn) (f : StationRec → StationRec) (s : State) :
    (updStation k f s).raw = s.raw := rfl

@[simp] theorem updStation_store (k : Stn) (f : StationRec → StationRec) (s : State) :
    (updStation k f s).store = s.store := rfl

@[simp] theorem updStation_held (k : Stn) (f : StationRec → StationRec) (s : State) :
    (updStation k f s).held = s.held := rfl

@[simp] theorem updStation_now (k : Stn) (f : StationRec → StationRec) (s : State) :
    (updStation k f s).now = s.now := rfl

@[simp] theorem updStation_choices (k : Stn) (f : StationRec → StationRec) (s : State) :
    (updStation k f s).choices = s.choices := rfl

@[simp] theorem updStation_pending (k : Stn) (f : StationRec → StationRec) (s : State) :
    (updStation k f s).pending = s.pending := rfl

/-! ### updOut -/

@[simp] theorem updOut_lines (k : Stn) (f : OutState → OutState) (s : State) :
    (updOut k f s).lines = s.lines := rfl

@[simp] theorem updOut_stations (k : Stn) (f : OutState → OutState) (s : State) :
    (updOut k f s).stations = s.stations := rfl

@[simp] theorem updOut_profiles (k : Stn) (f : OutState → OutState) (s : State) :
    (updOut k f s).profiles = s.profiles := rfl

@[simp] theorem updOut_points (k : Stn) (f : OutState → OutState) (s : State) :
    (updOut k f s).points = s.points := rfl

@[simp] theorem updOut_staleLimits (k : Stn) (f : OutState → OutState) (s : State) :
    (updOut k f s).staleLimits = s.staleLimits := rfl

@[simp] theorem updOut_outputs (k : Stn) (f : OutState → OutState) (s : State) :
    (updOut k f s).outputs = s.outputs.set k (f (s.outputs.get k)) := rfl

@[simp] theorem updOut_lampLines (k : Stn) (f : OutState → OutState) (s : State) :
    (updOut k f s).lampLines = s.lampLines := rfl

@[simp] theorem updOut_groups (k : Stn) (f : OutState → OutState) (s : State) :
    (updOut k f s).groups = s.groups := rfl

@[simp] theorem updOut_permitPins (k : Stn) (f : OutState → OutState) (s : State) :
    (updOut k f s).permitPins = s.permitPins := rfl

@[simp] theorem updOut_owners (k : Stn) (f : OutState → OutState) (s : State) :
    (updOut k f s).owners = s.owners := rfl

@[simp] theorem updOut_ops (k : Stn) (f : OutState → OutState) (s : State) :
    (updOut k f s).ops = s.ops := rfl

@[simp] theorem updOut_results (k : Stn) (f : OutState → OutState) (s : State) :
    (updOut k f s).results = s.results := rfl

@[simp] theorem updOut_cab (k : Stn) (f : OutState → OutState) (s : State) :
    (updOut k f s).cab = s.cab := rfl

@[simp] theorem updOut_port (k : Stn) (f : OutState → OutState) (s : State) :
    (updOut k f s).port = s.port := rfl

@[simp] theorem updOut_hub (k : Stn) (f : OutState → OutState) (s : State) :
    (updOut k f s).hub = s.hub := rfl

@[simp] theorem updOut_raw (k : Stn) (f : OutState → OutState) (s : State) :
    (updOut k f s).raw = s.raw := rfl

@[simp] theorem updOut_store (k : Stn) (f : OutState → OutState) (s : State) :
    (updOut k f s).store = s.store := rfl

@[simp] theorem updOut_held (k : Stn) (f : OutState → OutState) (s : State) :
    (updOut k f s).held = s.held := rfl

@[simp] theorem updOut_now (k : Stn) (f : OutState → OutState) (s : State) :
    (updOut k f s).now = s.now := rfl

@[simp] theorem updOut_choices (k : Stn) (f : OutState → OutState) (s : State) :
    (updOut k f s).choices = s.choices := rfl

@[simp] theorem updOut_pending (k : Stn) (f : OutState → OutState) (s : State) :
    (updOut k f s).pending = s.pending := rfl

/-! ### updGroup -/

@[simp] theorem updGroup_lines (g : Group) (f : GroupRec → GroupRec) (s : State) :
    (updGroup g f s).lines = s.lines := rfl

@[simp] theorem updGroup_stations (g : Group) (f : GroupRec → GroupRec) (s : State) :
    (updGroup g f s).stations = s.stations := rfl

@[simp] theorem updGroup_profiles (g : Group) (f : GroupRec → GroupRec) (s : State) :
    (updGroup g f s).profiles = s.profiles := rfl

@[simp] theorem updGroup_points (g : Group) (f : GroupRec → GroupRec) (s : State) :
    (updGroup g f s).points = s.points := rfl

@[simp] theorem updGroup_staleLimits (g : Group) (f : GroupRec → GroupRec) (s : State) :
    (updGroup g f s).staleLimits = s.staleLimits := rfl

@[simp] theorem updGroup_outputs (g : Group) (f : GroupRec → GroupRec) (s : State) :
    (updGroup g f s).outputs = s.outputs := rfl

@[simp] theorem updGroup_lampLines (g : Group) (f : GroupRec → GroupRec) (s : State) :
    (updGroup g f s).lampLines = s.lampLines := rfl

@[simp] theorem updGroup_groups (g : Group) (f : GroupRec → GroupRec) (s : State) :
    (updGroup g f s).groups = s.groups.set g (f (s.groups.get g)) := rfl

@[simp] theorem updGroup_permitPins (g : Group) (f : GroupRec → GroupRec) (s : State) :
    (updGroup g f s).permitPins = s.permitPins := rfl

@[simp] theorem updGroup_owners (g : Group) (f : GroupRec → GroupRec) (s : State) :
    (updGroup g f s).owners = s.owners := rfl

@[simp] theorem updGroup_ops (g : Group) (f : GroupRec → GroupRec) (s : State) :
    (updGroup g f s).ops = s.ops := rfl

@[simp] theorem updGroup_results (g : Group) (f : GroupRec → GroupRec) (s : State) :
    (updGroup g f s).results = s.results := rfl

@[simp] theorem updGroup_cab (g : Group) (f : GroupRec → GroupRec) (s : State) :
    (updGroup g f s).cab = s.cab := rfl

@[simp] theorem updGroup_port (g : Group) (f : GroupRec → GroupRec) (s : State) :
    (updGroup g f s).port = s.port := rfl

@[simp] theorem updGroup_hub (g : Group) (f : GroupRec → GroupRec) (s : State) :
    (updGroup g f s).hub = s.hub := rfl

@[simp] theorem updGroup_raw (g : Group) (f : GroupRec → GroupRec) (s : State) :
    (updGroup g f s).raw = s.raw := rfl

@[simp] theorem updGroup_store (g : Group) (f : GroupRec → GroupRec) (s : State) :
    (updGroup g f s).store = s.store := rfl

@[simp] theorem updGroup_held (g : Group) (f : GroupRec → GroupRec) (s : State) :
    (updGroup g f s).held = s.held := rfl

@[simp] theorem updGroup_now (g : Group) (f : GroupRec → GroupRec) (s : State) :
    (updGroup g f s).now = s.now := rfl

@[simp] theorem updGroup_choices (g : Group) (f : GroupRec → GroupRec) (s : State) :
    (updGroup g f s).choices = s.choices := rfl

@[simp] theorem updGroup_pending (g : Group) (f : GroupRec → GroupRec) (s : State) :
    (updGroup g f s).pending = s.pending := rfl

/-! ### updOwner -/

@[simp] theorem updOwner_lines (g : Group) (f : OwnerRec → OwnerRec) (s : State) :
    (updOwner g f s).lines = s.lines := rfl

@[simp] theorem updOwner_stations (g : Group) (f : OwnerRec → OwnerRec) (s : State) :
    (updOwner g f s).stations = s.stations := rfl

@[simp] theorem updOwner_profiles (g : Group) (f : OwnerRec → OwnerRec) (s : State) :
    (updOwner g f s).profiles = s.profiles := rfl

@[simp] theorem updOwner_points (g : Group) (f : OwnerRec → OwnerRec) (s : State) :
    (updOwner g f s).points = s.points := rfl

@[simp] theorem updOwner_staleLimits (g : Group) (f : OwnerRec → OwnerRec) (s : State) :
    (updOwner g f s).staleLimits = s.staleLimits := rfl

@[simp] theorem updOwner_outputs (g : Group) (f : OwnerRec → OwnerRec) (s : State) :
    (updOwner g f s).outputs = s.outputs := rfl

@[simp] theorem updOwner_lampLines (g : Group) (f : OwnerRec → OwnerRec) (s : State) :
    (updOwner g f s).lampLines = s.lampLines := rfl

@[simp] theorem updOwner_groups (g : Group) (f : OwnerRec → OwnerRec) (s : State) :
    (updOwner g f s).groups = s.groups := rfl

@[simp] theorem updOwner_permitPins (g : Group) (f : OwnerRec → OwnerRec) (s : State) :
    (updOwner g f s).permitPins = s.permitPins := rfl

@[simp] theorem updOwner_owners (g : Group) (f : OwnerRec → OwnerRec) (s : State) :
    (updOwner g f s).owners = s.owners.set g (f (s.owners.get g)) := rfl

@[simp] theorem updOwner_ops (g : Group) (f : OwnerRec → OwnerRec) (s : State) :
    (updOwner g f s).ops = s.ops := rfl

@[simp] theorem updOwner_results (g : Group) (f : OwnerRec → OwnerRec) (s : State) :
    (updOwner g f s).results = s.results := rfl

@[simp] theorem updOwner_cab (g : Group) (f : OwnerRec → OwnerRec) (s : State) :
    (updOwner g f s).cab = s.cab := rfl

@[simp] theorem updOwner_port (g : Group) (f : OwnerRec → OwnerRec) (s : State) :
    (updOwner g f s).port = s.port := rfl

@[simp] theorem updOwner_hub (g : Group) (f : OwnerRec → OwnerRec) (s : State) :
    (updOwner g f s).hub = s.hub := rfl

@[simp] theorem updOwner_raw (g : Group) (f : OwnerRec → OwnerRec) (s : State) :
    (updOwner g f s).raw = s.raw := rfl

@[simp] theorem updOwner_store (g : Group) (f : OwnerRec → OwnerRec) (s : State) :
    (updOwner g f s).store = s.store := rfl

@[simp] theorem updOwner_held (g : Group) (f : OwnerRec → OwnerRec) (s : State) :
    (updOwner g f s).held = s.held := rfl

@[simp] theorem updOwner_now (g : Group) (f : OwnerRec → OwnerRec) (s : State) :
    (updOwner g f s).now = s.now := rfl

@[simp] theorem updOwner_choices (g : Group) (f : OwnerRec → OwnerRec) (s : State) :
    (updOwner g f s).choices = s.choices := rfl

@[simp] theorem updOwner_pending (g : Group) (f : OwnerRec → OwnerRec) (s : State) :
    (updOwner g f s).pending = s.pending := rfl

/-! ### setOp -/

@[simp] theorem setOp_lines (g : Group) (o : Option OpRec) (s : State) :
    (setOp g o s).lines = s.lines := rfl

@[simp] theorem setOp_stations (g : Group) (o : Option OpRec) (s : State) :
    (setOp g o s).stations = s.stations := rfl

@[simp] theorem setOp_profiles (g : Group) (o : Option OpRec) (s : State) :
    (setOp g o s).profiles = s.profiles := rfl

@[simp] theorem setOp_points (g : Group) (o : Option OpRec) (s : State) :
    (setOp g o s).points = s.points := rfl

@[simp] theorem setOp_staleLimits (g : Group) (o : Option OpRec) (s : State) :
    (setOp g o s).staleLimits = s.staleLimits := rfl

@[simp] theorem setOp_outputs (g : Group) (o : Option OpRec) (s : State) :
    (setOp g o s).outputs = s.outputs := rfl

@[simp] theorem setOp_lampLines (g : Group) (o : Option OpRec) (s : State) :
    (setOp g o s).lampLines = s.lampLines := rfl

@[simp] theorem setOp_groups (g : Group) (o : Option OpRec) (s : State) :
    (setOp g o s).groups = s.groups := rfl

@[simp] theorem setOp_permitPins (g : Group) (o : Option OpRec) (s : State) :
    (setOp g o s).permitPins = s.permitPins := rfl

@[simp] theorem setOp_owners (g : Group) (o : Option OpRec) (s : State) :
    (setOp g o s).owners = s.owners := rfl

@[simp] theorem setOp_ops (g : Group) (o : Option OpRec) (s : State) :
    (setOp g o s).ops = s.ops.set g o := rfl

@[simp] theorem setOp_results (g : Group) (o : Option OpRec) (s : State) :
    (setOp g o s).results = s.results := rfl

@[simp] theorem setOp_cab (g : Group) (o : Option OpRec) (s : State) :
    (setOp g o s).cab = s.cab := rfl

@[simp] theorem setOp_port (g : Group) (o : Option OpRec) (s : State) :
    (setOp g o s).port = s.port := rfl

@[simp] theorem setOp_hub (g : Group) (o : Option OpRec) (s : State) :
    (setOp g o s).hub = s.hub := rfl

@[simp] theorem setOp_raw (g : Group) (o : Option OpRec) (s : State) :
    (setOp g o s).raw = s.raw := rfl

@[simp] theorem setOp_store (g : Group) (o : Option OpRec) (s : State) :
    (setOp g o s).store = s.store := rfl

@[simp] theorem setOp_held (g : Group) (o : Option OpRec) (s : State) :
    (setOp g o s).held = s.held := rfl

@[simp] theorem setOp_now (g : Group) (o : Option OpRec) (s : State) :
    (setOp g o s).now = s.now := rfl

@[simp] theorem setOp_choices (g : Group) (o : Option OpRec) (s : State) :
    (setOp g o s).choices = s.choices := rfl

@[simp] theorem setOp_pending (g : Group) (o : Option OpRec) (s : State) :
    (setOp g o s).pending = s.pending := rfl

/-! ### setResult -/

@[simp] theorem setResult_lines (g : Group) (src : Source) (r : Option OpResult) (s : State) :
    (setResult g src r s).lines = s.lines := rfl

@[simp] theorem setResult_stations (g : Group) (src : Source) (r : Option OpResult) (s : State) :
    (setResult g src r s).stations = s.stations := rfl

@[simp] theorem setResult_profiles (g : Group) (src : Source) (r : Option OpResult) (s : State) :
    (setResult g src r s).profiles = s.profiles := rfl

@[simp] theorem setResult_points (g : Group) (src : Source) (r : Option OpResult) (s : State) :
    (setResult g src r s).points = s.points := rfl

@[simp] theorem setResult_staleLimits (g : Group) (src : Source) (r : Option OpResult) (s : State) :
    (setResult g src r s).staleLimits = s.staleLimits := rfl

@[simp] theorem setResult_outputs (g : Group) (src : Source) (r : Option OpResult) (s : State) :
    (setResult g src r s).outputs = s.outputs := rfl

@[simp] theorem setResult_lampLines (g : Group) (src : Source) (r : Option OpResult) (s : State) :
    (setResult g src r s).lampLines = s.lampLines := rfl

@[simp] theorem setResult_groups (g : Group) (src : Source) (r : Option OpResult) (s : State) :
    (setResult g src r s).groups = s.groups := rfl

@[simp] theorem setResult_permitPins (g : Group) (src : Source) (r : Option OpResult) (s : State) :
    (setResult g src r s).permitPins = s.permitPins := rfl

@[simp] theorem setResult_owners (g : Group) (src : Source) (r : Option OpResult) (s : State) :
    (setResult g src r s).owners = s.owners := rfl

@[simp] theorem setResult_ops (g : Group) (src : Source) (r : Option OpResult) (s : State) :
    (setResult g src r s).ops = s.ops := rfl

@[simp] theorem setResult_results (g : Group) (src : Source) (r : Option OpResult) (s : State) :
    (setResult g src r s).results = s.results.set g ((s.results.get g).set src r) := rfl

@[simp] theorem setResult_cab (g : Group) (src : Source) (r : Option OpResult) (s : State) :
    (setResult g src r s).cab = s.cab := rfl

@[simp] theorem setResult_port (g : Group) (src : Source) (r : Option OpResult) (s : State) :
    (setResult g src r s).port = s.port := rfl

@[simp] theorem setResult_hub (g : Group) (src : Source) (r : Option OpResult) (s : State) :
    (setResult g src r s).hub = s.hub := rfl

@[simp] theorem setResult_raw (g : Group) (src : Source) (r : Option OpResult) (s : State) :
    (setResult g src r s).raw = s.raw := rfl

@[simp] theorem setResult_store (g : Group) (src : Source) (r : Option OpResult) (s : State) :
    (setResult g src r s).store = s.store := rfl

@[simp] theorem setResult_held (g : Group) (src : Source) (r : Option OpResult) (s : State) :
    (setResult g src r s).held = s.held := rfl

@[simp] theorem setResult_now (g : Group) (src : Source) (r : Option OpResult) (s : State) :
    (setResult g src r s).now = s.now := rfl

@[simp] theorem setResult_choices (g : Group) (src : Source) (r : Option OpResult) (s : State) :
    (setResult g src r s).choices = s.choices := rfl

@[simp] theorem setResult_pending (g : Group) (src : Source) (r : Option OpResult) (s : State) :
    (setResult g src r s).pending = s.pending := rfl

/-! ### updCab -/

@[simp] theorem updCab_lines (f : CabState → CabState) (s : State) :
    (updCab f s).lines = s.lines := rfl

@[simp] theorem updCab_stations (f : CabState → CabState) (s : State) :
    (updCab f s).stations = s.stations := rfl

@[simp] theorem updCab_profiles (f : CabState → CabState) (s : State) :
    (updCab f s).profiles = s.profiles := rfl

@[simp] theorem updCab_points (f : CabState → CabState) (s : State) :
    (updCab f s).points = s.points := rfl

@[simp] theorem updCab_staleLimits (f : CabState → CabState) (s : State) :
    (updCab f s).staleLimits = s.staleLimits := rfl

@[simp] theorem updCab_outputs (f : CabState → CabState) (s : State) :
    (updCab f s).outputs = s.outputs := rfl

@[simp] theorem updCab_lampLines (f : CabState → CabState) (s : State) :
    (updCab f s).lampLines = s.lampLines := rfl

@[simp] theorem updCab_groups (f : CabState → CabState) (s : State) :
    (updCab f s).groups = s.groups := rfl

@[simp] theorem updCab_permitPins (f : CabState → CabState) (s : State) :
    (updCab f s).permitPins = s.permitPins := rfl

@[simp] theorem updCab_owners (f : CabState → CabState) (s : State) :
    (updCab f s).owners = s.owners := rfl

@[simp] theorem updCab_ops (f : CabState → CabState) (s : State) :
    (updCab f s).ops = s.ops := rfl

@[simp] theorem updCab_results (f : CabState → CabState) (s : State) :
    (updCab f s).results = s.results := rfl

@[simp] theorem updCab_cab (f : CabState → CabState) (s : State) :
    (updCab f s).cab = f s.cab := rfl

@[simp] theorem updCab_port (f : CabState → CabState) (s : State) :
    (updCab f s).port = s.port := rfl

@[simp] theorem updCab_hub (f : CabState → CabState) (s : State) :
    (updCab f s).hub = s.hub := rfl

@[simp] theorem updCab_raw (f : CabState → CabState) (s : State) :
    (updCab f s).raw = s.raw := rfl

@[simp] theorem updCab_store (f : CabState → CabState) (s : State) :
    (updCab f s).store = s.store := rfl

@[simp] theorem updCab_held (f : CabState → CabState) (s : State) :
    (updCab f s).held = s.held := rfl

@[simp] theorem updCab_now (f : CabState → CabState) (s : State) :
    (updCab f s).now = s.now := rfl

@[simp] theorem updCab_choices (f : CabState → CabState) (s : State) :
    (updCab f s).choices = s.choices := rfl

@[simp] theorem updCab_pending (f : CabState → CabState) (s : State) :
    (updCab f s).pending = s.pending := rfl

/-! ### updPort -/

@[simp] theorem updPort_lines (f : HostPort → HostPort) (s : State) :
    (updPort f s).lines = s.lines := rfl

@[simp] theorem updPort_stations (f : HostPort → HostPort) (s : State) :
    (updPort f s).stations = s.stations := rfl

@[simp] theorem updPort_profiles (f : HostPort → HostPort) (s : State) :
    (updPort f s).profiles = s.profiles := rfl

@[simp] theorem updPort_points (f : HostPort → HostPort) (s : State) :
    (updPort f s).points = s.points := rfl

@[simp] theorem updPort_staleLimits (f : HostPort → HostPort) (s : State) :
    (updPort f s).staleLimits = s.staleLimits := rfl

@[simp] theorem updPort_outputs (f : HostPort → HostPort) (s : State) :
    (updPort f s).outputs = s.outputs := rfl

@[simp] theorem updPort_lampLines (f : HostPort → HostPort) (s : State) :
    (updPort f s).lampLines = s.lampLines := rfl

@[simp] theorem updPort_groups (f : HostPort → HostPort) (s : State) :
    (updPort f s).groups = s.groups := rfl

@[simp] theorem updPort_permitPins (f : HostPort → HostPort) (s : State) :
    (updPort f s).permitPins = s.permitPins := rfl

@[simp] theorem updPort_owners (f : HostPort → HostPort) (s : State) :
    (updPort f s).owners = s.owners := rfl

@[simp] theorem updPort_ops (f : HostPort → HostPort) (s : State) :
    (updPort f s).ops = s.ops := rfl

@[simp] theorem updPort_results (f : HostPort → HostPort) (s : State) :
    (updPort f s).results = s.results := rfl

@[simp] theorem updPort_cab (f : HostPort → HostPort) (s : State) :
    (updPort f s).cab = s.cab := rfl

@[simp] theorem updPort_port (f : HostPort → HostPort) (s : State) :
    (updPort f s).port = f s.port := rfl

@[simp] theorem updPort_hub (f : HostPort → HostPort) (s : State) :
    (updPort f s).hub = s.hub := rfl

@[simp] theorem updPort_raw (f : HostPort → HostPort) (s : State) :
    (updPort f s).raw = s.raw := rfl

@[simp] theorem updPort_store (f : HostPort → HostPort) (s : State) :
    (updPort f s).store = s.store := rfl

@[simp] theorem updPort_held (f : HostPort → HostPort) (s : State) :
    (updPort f s).held = s.held := rfl

@[simp] theorem updPort_now (f : HostPort → HostPort) (s : State) :
    (updPort f s).now = s.now := rfl

@[simp] theorem updPort_choices (f : HostPort → HostPort) (s : State) :
    (updPort f s).choices = s.choices := rfl

@[simp] theorem updPort_pending (f : HostPort → HostPort) (s : State) :
    (updPort f s).pending = s.pending := rfl

/-! ### reachTime -/

@[simp] theorem reachTime_lines (t : Nat) (s : State) :
    (reachTime t s).lines = s.lines := rfl

@[simp] theorem reachTime_stations (t : Nat) (s : State) :
    (reachTime t s).stations = s.stations := rfl

@[simp] theorem reachTime_profiles (t : Nat) (s : State) :
    (reachTime t s).profiles = s.profiles := rfl

@[simp] theorem reachTime_points (t : Nat) (s : State) :
    (reachTime t s).points = s.points := rfl

@[simp] theorem reachTime_staleLimits (t : Nat) (s : State) :
    (reachTime t s).staleLimits = s.staleLimits := rfl

@[simp] theorem reachTime_outputs (t : Nat) (s : State) :
    (reachTime t s).outputs = s.outputs := rfl

@[simp] theorem reachTime_lampLines (t : Nat) (s : State) :
    (reachTime t s).lampLines = s.lampLines := rfl

@[simp] theorem reachTime_groups (t : Nat) (s : State) :
    (reachTime t s).groups = s.groups := rfl

@[simp] theorem reachTime_permitPins (t : Nat) (s : State) :
    (reachTime t s).permitPins = s.permitPins := rfl

@[simp] theorem reachTime_owners (t : Nat) (s : State) :
    (reachTime t s).owners = s.owners := rfl

@[simp] theorem reachTime_ops (t : Nat) (s : State) :
    (reachTime t s).ops = s.ops := rfl

@[simp] theorem reachTime_results (t : Nat) (s : State) :
    (reachTime t s).results = s.results := rfl

@[simp] theorem reachTime_cab (t : Nat) (s : State) :
    (reachTime t s).cab = s.cab := rfl

@[simp] theorem reachTime_port (t : Nat) (s : State) :
    (reachTime t s).port = s.port := rfl

@[simp] theorem reachTime_hub (t : Nat) (s : State) :
    (reachTime t s).hub = s.hub := rfl

@[simp] theorem reachTime_raw (t : Nat) (s : State) :
    (reachTime t s).raw = s.raw := rfl

@[simp] theorem reachTime_store (t : Nat) (s : State) :
    (reachTime t s).store = s.store := rfl

@[simp] theorem reachTime_held (t : Nat) (s : State) :
    (reachTime t s).held = s.held := rfl

@[simp] theorem reachTime_now (t : Nat) (s : State) :
    (reachTime t s).now = max s.now t := rfl

@[simp] theorem reachTime_choices (t : Nat) (s : State) :
    (reachTime t s).choices = s.choices := rfl

@[simp] theorem reachTime_pending (t : Nat) (s : State) :
    (reachTime t s).pending = s.pending := rfl

end Sys2Proof.Machine
end

