-- ==== Sys2Proof/Laws/Points.lean ====
section
/-! SUPPORT. The operations on the image keep its number of points, and the reports of outputs keep all of a point
but its value, its flags and whether it is GOOD or PENDING. -/

namespace Sys2Proof.Machine

open Sys2Proof

@[simp] theorem length_flagChanges (ps qs : List Point) : (flagChanges ps qs).length = qs.length := by
  induction ps generalizing qs with
  | nil => rfl
  | cons p ps ih => cases qs <;> simp [flagChanges, ih]

@[simp] theorem length_setPoint (i : Nat) (f : Point → Point) (ps : List Point) :
    (setPoint i f ps).length = ps.length := by simp [setPoint]

@[simp] theorem length_mapWindow_go (f : Nat → Point → Point) (b n k : Nat) (ps : List Point) :
    (mapWindow.go f b n k ps).length = ps.length := by
  induction ps generalizing b n k with
  | nil => cases b <;> cases n <;> rfl
  | cons p ps ih => cases b <;> cases n <;> simp [mapWindow.go, ih]

@[simp] theorem length_mapWindow (f : Nat → Point → Point) (b n : Nat) (ps : List Point) :
    (mapWindow f b n ps).length = ps.length := by simp [mapWindow]

@[simp] theorem length_foldl_setPoint {α : Type} (g : α → Nat) (f : Point → Point) (xs : List α)
    (ps : List Point) : (xs.foldl (fun pts j => setPoint (g j) f pts) ps).length = ps.length := by
  induction xs generalizing ps with
  | nil => rfl
  | cons x xs ih => simp [ih]

@[simp] theorem length_ageWindow (p : Profile) (limit : Nat) (ps : List Point) :
    (ageWindow p limit ps).length = ps.length := by simp [ageWindow]

@[simp] theorem length_takeSamples (p : Profile) (xs : List Word) (ps : List Point) :
    (takeSamples p xs ps).length = ps.length := by simp [takeSamples]

@[simp] theorem length_mapProfileWindow (k : Stn) (p : Profile) (ps : List Point) :
    (mapProfileWindow k p ps).length = ps.length := by simp [mapProfileWindow]

@[simp] theorem length_unmapProfileWindow (p : Profile) (ps : List Point) :
    (unmapProfileWindow p ps).length = ps.length := by simp [unmapProfileWindow]

@[simp] theorem length_staleProfileWindow (p : Profile) (ps : List Point) :
    (staleProfileWindow p ps).length = ps.length := by simp [staleProfileWindow]

/-! ### A window, point by point -/

theorem mapWindow_go_eq (f : Nat → Point → Point) (b n k : Nat) (ps : List Point) :
    mapWindow.go f b n k ps = ps.mapIdx (fun i q => if i < b ∨ b + n ≤ i then q else f (k + i - b) q) := by
  induction ps generalizing b n k with
  | nil => cases b <;> cases n <;> rfl
  | cons p ps ih =>
    cases b with
    | succ b =>
      rw [mapWindow.go, ih, List.mapIdx_cons]
      congr 1
      refine List.mapIdx_eq_mapIdx_iff.2 (fun i _ => ?_)
      have : (i < b ∨ b + n ≤ i) ↔ (i + 1 < b + 1 ∨ b + 1 + n ≤ i + 1) := by omega
      simp only [this, show k + (i + 1) - (b + 1) = k + i - b by omega]
    | zero =>
      cases n with
      | zero => simp [mapWindow.go, List.mapIdx_cons]; apply List.ext_getElem <;> simp
      | succ n =>
        rw [mapWindow.go, ih, List.mapIdx_cons]
        congr 1
        refine List.mapIdx_eq_mapIdx_iff.2 (fun i _ => ?_)
        have : (i < 0 ∨ 0 + n ≤ i) ↔ (i + 1 < 0 ∨ 0 + (n + 1) ≤ i + 1) := by omega
        simp only [this, show k + 1 + i - 0 = k + (i + 1) - 0 by omega]

/-- What the operations on a window do to the image: `f` of its place in the window at each of its points. -/
theorem mapWindow_eq (f : Nat → Point → Point) (b n : Nat) (ps : List Point) :
    mapWindow f b n ps = ps.mapIdx (fun i q => if i < b ∨ b + n ≤ i then q else f (i - b) q) := by
  rw [mapWindow, mapWindow_go_eq]; simp

/-! ### What output reports, notices and flags leave of a point -/

/-- A point without its value and flags, PENDING read as GOOD: what only mapping, samples and ageing change. -/
def steady (p : Point) : Point :=
  { p with
    value := 0, writeOut := false, changed := false, notify := false
    quality := if p.quality = .pending then .good else p.quality }

/-- Two images whose points differ in values, flags, and GOOD against PENDING at most. -/
def Quiet (old new : List Point) : Prop := new.map steady = old.map steady

theorem Quiet.length {old new : List Point} (h : Quiet old new) : new.length = old.length := by
  simpa using congrArg List.length h

theorem Quiet.refl (ps : List Point) : Quiet ps ps := rfl

theorem Quiet.trans {a b c : List Point} (h : Quiet a b) (h' : Quiet b c) : Quiet a c := Eq.trans h' h

/-- Point by point. -/
theorem Quiet.getD {old new : List Point} (h : Quiet old new) (i : Nat) :
    steady (new.getD i Point.unmapped) = steady (old.getD i Point.unmapped) := by
  have := congrArg (fun l => l.getD i (steady Point.unmapped)) h
  simpa [List.getD_eq_getElem?_getD, List.getElem?_map, Option.getD_map] using this

theorem quiet_flagChanges (ps qs : List Point) : Quiet qs (flagChanges ps qs) := by
  induction ps generalizing qs with
  | nil => exact rfl
  | cons p ps ih =>
    cases qs with
    | nil => exact rfl
    | cons q qs =>
      have h := ih qs
      unfold Quiet at *
      simp only [flagChanges, List.map_cons, h]
      split <;> rfl

theorem quiet_setPoint (i : Nat) (f : Point → Point) (hf : ∀ p, steady (f p) = steady p) (ps : List Point) :
    Quiet ps (setPoint i f ps) := by
  unfold Quiet setPoint
  rw [List.map_set, hf]
  apply List.ext_getElem?
  intro j
  rw [List.getElem?_set]
  split
  · rename_i h; subst h
    by_cases hi : i < ps.length <;> simp [hi, List.getD_eq_getElem?_getD]
  · rfl

theorem quiet_mapWindow (f : Nat → Point → Point) (hf : ∀ k p, steady (f k p) = steady p) (b n : Nat)
    (ps : List Point) : Quiet ps (mapWindow f b n ps) := by
  suffices ∀ k, (mapWindow.go f b n k ps).map steady = ps.map steady from this 0
  intro k
  induction ps generalizing b n k with
  | nil => cases b <;> cases n <;> rfl
  | cons p ps ih => cases b <;> cases n <;> simp [mapWindow.go, ih, hf]

theorem quiet_foldl_setPoint {α : Type} (g : α → Nat) (f : Point → Point) (hf : ∀ p, steady (f p) = steady p)
    (xs : List α) (ps : List Point) : Quiet ps (xs.foldl (fun pts j => setPoint (g j) f pts) ps) := by
  induction xs generalizing ps with
  | nil => exact rfl
  | cons x xs ih => exact (quiet_setPoint _ f hf ps).trans (ih _)

theorem steady_writtenPoint (v : Word) (p : Point) : steady (writtenPoint v p) = steady p := by
  cases h : p.quality <;> simp [steady, writtenPoint, h]

theorem steady_settledPoint (p : Point) : steady (settledPoint p) = steady p := by
  cases h : p.quality <;> simp [steady, settledPoint, h]

end Sys2Proof.Machine
end

