-- ==== Sys2Proof/Laws/Closure.lean ====
section
/-! SUPPORT. What the shared operations can do to a state, said once: each keeps every predicate that is closed
under the primitive updates it is made of. -/

namespace Sys2Proof.Laws

open Sys2Proof Sys2Proof.Machine Sys2Proof.Safety

/-- Closed under the updates that output points, pending lists and notices are made of. -/
structure Image (P : State → Prop) : Prop where
  points : ∀ s pts, Quiet s.points pts → P s → P { s with points := pts }
  out : ∀ k f s, (∀ o, (f o).lastEcho = o.lastEcho) → P s → P (updOut k f s)
  notice : ∀ kind payload s, P s → P (notice kind payload s)

/-- Closed also under the updates of the cab service. -/
structure Panel (P : State → Prop) : Prop extends Image P where
  cab : ∀ f s, P s → P (updCab f s)

/-- Closed also under the updates of groups, operations and results. -/
structure Local (P : State → Prop) : Prop extends Panel P where
  permit : ∀ g r s, RecordSafe r → P s →
    P { updGroup g (fun _ => r) s with permitPins := s.permitPins.set g r.permit }
  untrip : ∀ g s, P s → P (updGroup g (fun r => { r with trip := false }) s)
  op : ∀ g o s, P s → P (setOp g o s)
  result : ∀ g src r s,
    (src = .remote → (∀ q st, r ≠ some (.refused q st)) ∨ r = (s.results.get g).get src) →
    P s → P (setResult g src r s)

/-- Closed also under the updates of marks and owners. -/
structure Inner (P : State → Prop) : Prop extends Local P where
  unmark : ∀ g src s, P s → P (updOwner g (fun r => { r with marks := r.marks.set src none }) s)
  mark : ∀ g src e s, P s →
    P (updOwner g (fun r => { r with marks := r.marks.set src (some ⟨r.generation, e⟩) }) s)
  owner : ∀ g new s, P s → P (updOwner g (fun r => ⟨new, r.generation + 1, ⟨none, none⟩⟩) s)

section Images

variable {P : State → Prop} (h : Image P)

theorem foldl_keeps {α : Type} (f : State → α → State) (hf : ∀ s a, P s → P (f s a)) (xs : List α) :
    ∀ s, P s → P (xs.foldl f s) := by
  induction xs with
  | nil => exact fun _ hs => hs
  | cons x xs ih => exact fun s hs => ih _ (hf s x hs)

include h

/-! ### Points and outputs -/

theorem pointNotice_keeps (s : State) (c : Change) (hs : P s) : P (pointNotice s c) := by
  unfold pointNotice; split
  · exact h.notice _ _ _ hs
  · exact hs

theorem commitPoints_keeps (new : List Point) (s : State) (hn : Quiet s.points new) (hs : P s) :
    P (commitPoints new s).1 :=
  foldl_keeps _ (pointNotice_keeps h) _ _ (h.points _ _ (hn.trans (quiet_flagChanges _ _)) hs)

theorem commitQuiet_keeps (new : List Point) (s : State) (hn : Quiet s.points new) (hs : P s) :
    P (commitQuiet new s) := commitPoints_keeps h new s hn hs

theorem setLocalOutput_keeps (i : Nat) (v : Int) (s : State) (hs : P s) : P (setLocalOutput i v s) :=
  commitQuiet_keeps h _ _ (quiet_setPoint i (fun p => { p with value := v }) (fun _ => rfl) _) hs

theorem reportWritten_keeps (k : Stn) (j : Nat) (v : Word) (s : State) (hs : P s) :
    P (reportWritten k j v s) := by
  unfold reportWritten; split
  · exact commitQuiet_keeps h _ _ (quiet_setPoint _ _ (steady_writtenPoint _) _) hs
  · exact hs

theorem reportSettled_keeps (k : Stn) (js : List Nat) (s : State) (hs : P s) : P (reportSettled k js s) := by
  unfold reportSettled; split
  · exact commitQuiet_keeps h _ _ (quiet_foldl_setPoint _ _ steady_settledPoint _ _) hs
  · exact hs

theorem reportResync_keeps (k : Stn) (vs : List Word) (s : State) (hs : P s) : P (reportResync k vs s) := by
  unfold reportResync; split
  · exact commitQuiet_keeps h _ _ (quiet_mapWindow _ (fun _ _ => steady_writtenPoint _ _) _ _ _) hs
  · exact hs

omit h in
theorem putEntry_lastEcho (e : Entry) (o : OutState) : (putEntry e o).lastEcho = o.lastEcho := by
  unfold putEntry; split
  · rfl
  · split <;> rfl

omit h in
theorem resyncOut_lastEcho (o : OutState) : (resyncOut o).lastEcho = o.lastEcho := by
  unfold resyncOut; dsimp only; split <;> rfl

theorem enterWrite_keeps (k : Stn) (j : Nat) (v : Word) (s : State) (hs : P s) : P (enterWrite k j v s) :=
  reportWritten_keeps h _ _ _ _ (h.out _ _ _ (putEntry_lastEcho _) hs)

theorem resync_keeps (k : Stn) (s : State) (hs : P s) : P (resync k s) :=
  reportResync_keeps h _ _ _ (h.out _ _ _ resyncOut_lastEcho hs)

theorem releaseWrite_keeps (k : Stn) (j : Nat) (s : State) (hs : P s) : P (releaseWrite k j s) := by
  unfold releaseWrite
  split <;> (try exact hs)
  all_goals dsimp only
  all_goals split
  all_goals first
    | exact hs
    | exact enterWrite_keeps h _ _ _ _ hs
    | exact setLocalOutput_keeps h _ _ _ (h.out _ _ _ (fun _ => rfl) hs)
    | exact h.out _ _ _ (fun _ => rfl) hs

theorem enterEntries_keeps (k : Stn) (es : List Entry) (s : State) (hs : P s) : P (enterEntries k es s) := by
  refine foldl_keeps _ (fun s e hs => ?_) _ _ hs
  cases e with
  | write j v => exact enterWrite_keeps h _ _ _ _ hs
  | fence => exact h.out _ _ _ (putEntry_lastEcho _) hs

end Images

section Panels

variable {P : State → Prop} (h : Panel P)

include h

/-! ### The cab service -/

theorem updCopy_keeps (g : Group) (f : GroupCopy → GroupCopy) (s : State) (hs : P s) : P (updCopy g f s) :=
  h.cab _ _ hs

theorem offerCabWrite_keeps (s : State) (k : Nat) (hs : P s) : P (offerCabWrite s k) := by
  unfold offerCabWrite; split
  · exact enterWrite_keeps h.toImage _ _ _ _ hs
  · exact hs

theorem offerCabWrites_keeps (s : State) (hs : P s) : P (offerCabWrites s) :=
  foldl_keeps _ (offerCabWrite_keeps h) _ _ hs

theorem setCabLamp_keeps (k : Nat) (l : LampRec) (s : State) (hs : P s) : P (setCabLamp k l s) := by
  unfold setCabLamp; dsimp only; split
  · exact h.cab _ _ hs
  · exact offerCabWrites_keeps h _ (h.cab _ _ hs)

theorem mirrorOne_keeps (s : State) (k : Nat) (hs : P s) : P (mirrorOne s k) := by
  unfold mirrorOne; dsimp only; split
  · exact hs
  · exact setCabLamp_keeps h _ _ _ hs

theorem mirror_keeps (s : State) (hs : P s) : P (mirror s) := foldl_keeps _ (mirrorOne_keeps h) _ _ hs

theorem handCopy_keeps (g : Group) (f : GroupCopy → GroupCopy) (s : State) (hs : P s) :
    P (handCopy g f s) := by
  unfold handCopy; dsimp only; split
  · exact mirror_keeps h _ (updCopy_keeps h _ _ _ hs)
  · exact updCopy_keeps h _ _ _ hs

theorem updAlert_keeps (f : Alert → Alert) (s : State) (hs : P s) : P (updAlert f s) := h.cab _ _ hs

theorem alertNotice_keeps (s : State) (hs : P s) : P (alertNotice s) := h.notice _ _ _ hs

theorem startSound_keeps (s : State) (hs : P s) : P (startSound s) := updAlert_keeps h _ _ hs

theorem raiseAlert_keeps (r : AlertReason) (s : State) (hs : P s) : P (raiseAlert r s) := by
  have h1 : P (updAlert (fun a => { a with reasons := addReason r a.reasons }) s) := updAlert_keeps h _ _ hs
  unfold raiseAlert; dsimp only; split
  · exact mirror_keeps h _ (alertNotice_keeps h _ (startSound_keeps h _ h1))
  · exact mirror_keeps h _ (startSound_keeps h _ h1)
  · exact h1

theorem ackAlert_keeps (s : State) (hs : P s) : P (ackAlert s) :=
  mirror_keeps h _ (alertNotice_keeps h _ (updAlert_keeps h _ _ hs))

end Panels

section Locals

variable {P : State → Prop} (h : Local P)

include h

/-! ### The interlock -/

omit h in
theorem evalRecord_safe (s : State) (g : Group) : RecordSafe (evalRecord s g) := by
  intro hp
  simp only [evalRecord, permitOf, Bool.and_eq_true, Bool.or_eq_true, bne_iff_ne, beq_iff_eq,
    Bool.not_eq_true'] at hp ⊢
  tauto

omit h in
theorem unbound_safe : RecordSafe GroupRec.unbound := by intro hp; cases hp

theorem drivePermit_keeps (g : Group) (r : GroupRec) (s : State) (hr : RecordSafe r) (hs : P s) :
    P (drivePermit g (updGroup g (fun _ => r) s)) := by
  have h1 := h.permit g r s hr hs
  unfold drivePermit
  dsimp only
  split
  · rename_i he
    have he' : s.permitPins.get g = r.permit := by simpa using he
    have : s.permitPins.set g r.permit = s.permitPins := by rw [← he']; simp
    rw [this] at h1
    exact h1
  · refine setLocalOutput_keeps h.toImage _ _ _ ?_
    simpa using h1

theorem publishGroup_keeps (before : GroupRec) (g : Group) (r : GroupRec) (s : State) (hr : RecordSafe r)
    (hs : P s) : P (publishGroup before g (updGroup g (fun _ => r) s)) := by
  have h1 := drivePermit_keeps h g r s hr hs
  unfold publishGroup; dsimp only
  refine handCopy_keeps h.toPanel _ _ _ ?_
  split
  · exact h1
  · exact h.notice _ _ _ h1

theorem evaluateFrom_keeps (before : GroupRec) (g : Group) (s : State) (hs : P s) :
    P (evaluateFrom before g s) := by
  unfold evaluateFrom; split
  · dsimp only
    have h1 := publishGroup_keeps h before g _ s (evalRecord_safe s g) hs
    split
    · exact raiseAlert_keeps h.toPanel _ _ h1
    · exact h1
  · exact hs

theorem evaluateRecord_keeps (g : Group) (s : State) (hs : P s) : P (evaluateRecord g s) :=
  evaluateFrom_keeps h _ _ _ hs

omit h in
theorem updGroup_updGroup (g : Group) (f f' : GroupRec → GroupRec) (s : State) :
    updGroup g f (updGroup g f' s) = updGroup g (f ∘ f') s := by simp [updGroup]

/-- An evaluation of a record that has just been put in place. -/
theorem evaluateFrom_placed (before : GroupRec) (g : Group) (r : GroupRec) (s : State)
    (hb : r.bound = true) (hs : P s) : P (evaluateFrom before g (updGroup g (fun _ => r) s)) := by
  unfold evaluateFrom
  have hb' : (((updGroup g (fun _ => r) s).groups).get g).bound = true := by simpa using hb
  rw [if_pos hb']
  dsimp only
  rw [updGroup_updGroup]
  have h1 := publishGroup_keeps h before g _ s (evalRecord_safe (updGroup g (fun _ => r) s) g) hs
  split
  · exact raiseAlert_keeps h.toPanel _ _ h1
  · exact h1

theorem bindGroup_keeps (k : Stn) (s : State) (hs : P s) : P (bindGroup k s) := by
  unfold bindGroup
  split
  · split
    · exact evaluateFrom_placed h _ _ _ _ rfl hs
    · exact hs
  · exact hs

theorem unbindRecord_keeps (g : Group) (s : State) (hs : P s) : P (unbindRecord g s) :=
  publishGroup_keeps h _ _ _ _ unbound_safe hs

/-! ### The operation engine -/

theorem handFailure_keeps (g : Group) (s : State) (hs : P s) : P (handFailure g s) :=
  handCopy_keeps h.toPanel _ _ _ hs

theorem storeResult_keeps (g : Group) (src : Source) (r : OpResult) (s : State)
    (hr : src = .remote → ∀ q st, r ≠ .refused q st) (hs : P s) : P (storeResult g src r s) := by
  unfold storeResult; dsimp only
  have h1 : P (setResult g src (some (slotAfter ((s.results.get g).get src) r)) s) := by
    refine h.result _ _ _ _ (fun hsrc => ?_) hs
    unfold slotAfter
    split
    · exact .inl (fun q st he => hr hsrc q st (by simpa using he))
    · rename_i held hheld
      split
      · exact .inr hheld.symm
      · exact .inl (fun q st he => hr hsrc q st (by simpa using he))
  cases src with
  | cab => exact handFailure_keeps h _ _ h1
  | remote => exact h1

theorem operationNotice_keeps (g : Group) (src : Source) (a b c d : Byte) (n : Nat) (s : State) (hs : P s) :
    P (operationNotice g src a b c d n s) := h.notice _ _ _ hs

theorem cabRefused_keeps (g : Group) (q : CabRequest) (st : Status) (s : State) (hs : P s) :
    P (cabRefused g q st s) :=
  operationNotice_keeps h _ _ _ _ _ _ _ _ (storeResult_keeps h _ _ _ _ (by simp) hs)

theorem releaseDrive_keeps (r : OpRec) (s : State) (hs : P s) : P (releaseDrive r s) := by
  unfold releaseDrive
  split
  · split
    · exact releaseWrite_keeps h.toImage _ _ _ hs
    · exact hs
  · exact hs

theorem endOperation_keeps (g : Group) (e : Ending) (s : State) (hs : P s) : P (endOperation g e s) := by
  unfold endOperation
  split
  · exact hs
  · dsimp only
    refine evaluateRecord_keeps h _ _ ?_
    split
    · refine raiseAlert_keeps h.toPanel _ _ ?_
      exact operationNotice_keeps h _ _ _ _ _ _ _ _
        (storeResult_keeps h _ _ _ _ (fun _ q st => by cases e <;> simp [endResult])
          (h.op _ _ _ (releaseDrive_keeps h _ _ hs)))
    · exact operationNotice_keeps h _ _ _ _ _ _ _ _
        (storeResult_keeps h _ _ _ _ (fun _ q st => by cases e <;> simp [endResult])
          (h.op _ _ _ (releaseDrive_keeps h _ _ hs)))

theorem handToEngine_keeps (g : Group) (s : State) (hs : P s) : P (handToEngine g s) := by
  unfold handToEngine
  split
  · exact hs
  · dsimp only
    split
    · exact endOperation_keeps h _ _ _ hs
    · split
      · exact endOperation_keeps h _ _ _ hs
      · exact hs

theorem evaluate_keeps (g : Group) (s : State) (hs : P s) : P (evaluate g s) := by
  unfold evaluate; split
  · exact handToEngine_keeps h _ _ (evaluateRecord_keeps h _ _ hs)
  · exact hs

theorem noteBatch_keeps (k : Stn) (b : Batch) (s : State) (hs : P s) : P (noteBatch k b s) := by
  refine foldl_keeps _ (fun s g hs => ?_) _ _ hs
  dsimp only
  split
  · split
    · exact h.op _ _ _ hs
    · exact hs
  · exact hs

theorem immediateDone_keeps (g : Group) (kind : OpKind) (src : Source) (s : State) (hs : P s) :
    P (immediateDone g kind src s) :=
  operationNotice_keeps h _ _ _ _ _ _ _ _ (storeResult_keeps h _ _ _ _ (by simp) hs)

theorem startOperation_keeps (g : Group) (kind : OpKind) (src : Source) (k : Stn) (gp : GroupPart) (n : Nat)
    (reply : State → State) (hreply : ∀ s, P s → P (reply s)) (s : State) (hs : P s) :
    P (startOperation g kind src k gp n reply s) :=
  evaluate_keeps h _ _ (operationNotice_keeps h _ _ _ _ _ _ _ _
    (hreply _ (h.op _ _ _ (enterEntries_keeps h.toImage _ _ _ hs))))

theorem cabOperate_keeps (g : Group) (kind : OpKind) (s : State) (hs : P s) : P (cabOperate g kind s) := by
  unfold cabOperate; split
  · exact cabRefused_keeps h _ _ _ _ hs
  · exact immediateDone_keeps h _ _ _ _ hs
  · exact startOperation_keeps h _ _ _ _ _ _ _ (fun _ hs => hs) _ hs

theorem stopOperation_keeps (g : Group) (s : State) (hs : P s) : P (stopOperation g s).1 := by
  unfold stopOperation; split
  · exact endOperation_keeps h g (.aborted .stopped) s hs
  · exact hs

theorem cabStop_keeps (g : Group) (s : State) (hs : P s) : P (cabStop g s) := by
  unfold cabStop; split
  · exact stopOperation_keeps h _ _ hs
  · exact cabRefused_keeps h _ _ _ _ hs

theorem takeResult_keeps (g : Group) (src : Source) (s : State) (hs : P s) : P (takeResult g src s) := by
  have h1 : P (setResult g src none s) := h.result _ _ _ _ (fun _ => .inl (by simp)) hs
  cases src with
  | cab => exact handFailure_keeps h _ _ h1
  | remote => exact h1

theorem clearTrip_keeps (g : Group) (s : State) (hs : P s) : P (clearTrip g s) :=
  handToEngine_keeps h _ _ (evaluateFrom_keeps h _ _ _ (h.untrip _ _ hs))

theorem cabTripClear_keeps (g : Group) (s : State) (hs : P s) : P (cabTripClear g s) := by
  unfold cabTripClear; split
  · exact cabRefused_keeps h _ _ _ _ hs
  · exact hs
  · exact clearTrip_keeps h _ _ hs

end Locals

section Inners

variable {P : State → Prop} (h : Inner P)

include h

/-! ### Ownership -/

theorem setMark_none_keeps (g : Group) (src : Source) (s : State) (hs : P s) : P (setMark g src none s) := by
  cases src with
  | cab => exact handCopy_keeps h.toPanel _ _ _ (h.unmark _ _ _ hs)
  | remote => exact h.unmark _ _ _ hs

theorem removeMark_keeps (g : Group) (src : Source) (s : State) (hs : P s) : P (removeMark g src s) := by
  unfold removeMark; split
  · exact setMark_none_keeps h _ _ _ hs
  · exact hs

theorem ownerChange_keeps (g : Group) (new : Owner) (c : ClaimCause) (r : AbortReason) (s : State)
    (hs : P s) : P (ownerChange g new c r s) :=
  endOperation_keeps h.toLocal _ _ _ (handCopy_keeps h.toPanel _ _ _ (h.notice _ _ _ (h.owner _ _ _ hs)))

theorem claimReadTake_keeps (g : Group) (src : Source) (s : State) (hs : P s) :
    P (claimReadTake g src s) := by
  have h1 := h.mark g src (s.now + s.store.working.claimWindowMs) s hs
  cases src with
  | cab => exact handCopy_keeps h.toPanel _ _ _ h1
  | remote => exact h1

theorem claimSetTake_keeps (g : Group) (src : Source) (s : State) (hs : P s) :
    P (claimSetTake g src s).1 := by
  unfold claimSetTake; split
  · split
    · exact removeMark_keeps h g src s hs
    · exact ownerChange_keeps h g (ownerOfSource src) .set .owner s hs
  · exact removeMark_keeps h g src s hs

theorem claimReleaseTake_keeps (g : Group) (s : State) (hs : P s) : P (claimReleaseTake g s) :=
  ownerChange_keeps h _ _ _ _ _ hs

theorem cabClaimRead_keeps (g : Group) (s : State) (hs : P s) : P (cabClaimRead g s) := by
  unfold cabClaimRead; split
  · exact cabRefused_keeps h.toLocal _ _ _ _ hs
  · exact claimReadTake_keeps h _ _ _ hs

theorem cabClaimSet_keeps (g : Group) (s : State) (hs : P s) : P (cabClaimSet g s) := by
  unfold cabClaimSet; split
  · exact cabRefused_keeps h.toLocal _ _ _ _ hs
  · dsimp only; split
    · exact claimSetTake_keeps h _ _ _ hs
    · exact cabRefused_keeps h.toLocal _ _ _ _ (claimSetTake_keeps h _ _ _ hs)

theorem cabClaimRelease_keeps (g : Group) (s : State) (hs : P s) : P (cabClaimRelease g s) := by
  unfold cabClaimRelease; split
  · exact claimReleaseTake_keeps h _ _ hs
  · exact cabRefused_keeps h.toLocal _ _ _ _ hs

theorem loseSource_keeps (src : Source) (c : ClaimCause) (g : Group) (s : State) (hs : P s) :
    P (loseSource src c g s) := by
  unfold loseSource; split
  · exact ownerChange_keeps h _ _ _ _ _ hs
  · exact removeMark_keeps h _ _ _ hs

theorem cabLost_keeps (s : State) (hs : P s) : P (cabLost s) :=
  loseSource_keeps h _ _ _ _ (loseSource_keeps h _ _ _ _ hs)

theorem hostSilent_keeps (s : State) (hs : P s) : P (hostSilent s) :=
  loseSource_keeps h _ _ _ _ (loseSource_keeps h _ _ _ _ hs)

theorem clearMarks_keeps (g : Group) (s : State) (hs : P s) : P (clearMarks g s) :=
  removeMark_keeps h _ _ _ (removeMark_keeps h _ _ _ hs)

theorem unboundLapse_keeps (g : Group) (s : State) (hs : P s) : P (unboundLapse g s) := by
  unfold unboundLapse; split
  · exact clearMarks_keeps h _ _ hs
  · exact ownerChange_keeps h _ _ _ _ _ hs

theorem modeLapse_keeps (g : Group) (s : State) (hs : P s) : P (modeLapse g s) := by
  unfold modeLapse; split
  · exact clearMarks_keeps h _ _ hs
  · exact ownerChange_keeps h _ _ _ _ _ hs

theorem unbindGroup_keeps (g : Group) (s : State) (hs : P s) : P (unbindGroup g s) :=
  unboundLapse_keeps h _ _ (unbindRecord_keeps h.toLocal _ _ hs)

/-! ### Change sets handed on -/

theorem pressButton_keeps (k : Nat) (g : Group) (s : State) (hs : P s) : P (pressButton k g s) := by
  unfold pressButton
  split
  · exact cabOperate_keeps h.toLocal _ _ _ hs
  · exact cabOperate_keeps h.toLocal _ _ _ hs
  · exact cabOperate_keeps h.toLocal _ _ _ hs
  · exact cabOperate_keeps h.toLocal _ _ _ hs
  · exact cabOperate_keeps h.toLocal _ _ _ hs
  · exact cabOperate_keeps h.toLocal _ _ _ hs
  · exact cabOperate_keeps h.toLocal _ _ _ hs
  · exact cabStop_keeps h.toLocal _ _ hs
  · split
    · exact cabClaimSet_keeps h _ _ hs
    · exact cabClaimRead_keeps h _ _ hs
  · exact cabClaimRelease_keeps h _ _ hs
  · exact takeResult_keeps h.toLocal _ _ _ (ackAlert_keeps h.toPanel _ hs)
  · exact cabTripClear_keeps h.toLocal _ _ hs
  · exact hs

theorem selectGroup_keeps (cs : List Change) (s : State) (hs : P s) : P (selectGroup cs s) := by
  unfold selectGroup; split
  · dsimp only
    generalize (if _ = (0 : Int) then Group.a else Group.b) = g
    split
    · exact hs
    · exact mirror_keeps h.toPanel _ (h.cab _ _ hs)
  · exact hs

theorem cabReads_keeps (cs : List Change) (s : State) (hs : P s) : P (cabReads cs s) :=
  foldl_keeps _ (fun _ _ hs => pressButton_keeps h _ _ _ hs) _ _ (selectGroup_keeps h _ _ hs)

theorem interlockReads_keeps (cs : List Change) (s : State) (hs : P s) : P (interlockReads cs s) := by
  refine foldl_keeps _ (fun s g hs => ?_) _ _ hs
  split
  · exact evaluate_keeps h.toLocal _ _ hs
  · exact hs

end Inners

end Sys2Proof.Laws
end

