-- ==== Sys2Proof/Laws/Ops.lean ====
section
/-! SUPPORT. What the port's shared operations do: everything but the port stays, and what the port gains. -/

namespace Sys2Proof.Machine

open Sys2Proof Sys2Proof.Safety

/-- The three things that can come of a notice (R189, R190). -/
theorem notice_cases (kind : NoticeKind) (payload : List Byte) (s : State) :
    (noticeOn s.store.working.mask kind = false ∧ notice kind payload s = s) ∨
    (noticeOn s.store.working.mask kind = true ∧ 32 ≤ countSort .notice s.port.fifo ∧
      notice kind payload s = updPort (fun p => { p with
        overflowed := true
        counters := { p.counters with droppedNotices := satSucc counterTop p.counters.droppedNotices } }) s) ∨
    (noticeOn s.store.working.mask kind = true ∧ countSort .notice s.port.fifo < 32 ∧
      notice kind payload s = pushMessage ⟨.notice, noticeCode kind, 0, payload, false, false⟩ s) := by
  unfold notice
  cases hm : noticeOn s.store.working.mask kind with
  | false => exact .inl ⟨rfl, rfl⟩
  | true =>
    by_cases hn : 32 ≤ countSort .notice s.port.fifo
    · exact .inr (.inl ⟨rfl, hn, by simp [noticeLimit, hn]⟩)
    · exact .inr (.inr ⟨rfl, by omega, by simp [noticeLimit, hn]⟩)

/-- A notice changes the port only. -/
theorem notice_eq (kind : NoticeKind) (payload : List Byte) (s : State) :
    notice kind payload s = { s with port := (notice kind payload s).port } := by
  rcases notice_cases kind payload s with ⟨-, e⟩ | ⟨-, -, e⟩ | ⟨-, -, e⟩ <;> rw [e] <;> rfl

theorem uncountedReply_eq (code tag : Byte) (st : Status) (s : State) :
    uncountedReply code tag st s = { s with port := (uncountedReply code tag st s).port } := by
  unfold uncountedReply; split <;> rfl

/-- A request that is ready to be taken reaches its owner. -/
theorem takeRequest_ready (code tag : Byte) (f : State → State) (s : State) (h : Ready s tag) :
    takeRequest code tag f s = f (acceptRequest code tag s) := by
  obtain ⟨h1, h2, h3⟩ := h
  simp [takeRequest, h1, h2, tableLimit, Nat.not_le.mpr h3]

theorem quickReply_ready (code tag : Byte) (answer : State → Status × List Byte) (s : State)
    (h : Ready s tag) : quickReply code tag answer s =
      replyBytes code tag (answer (acceptRequest code tag s)).1 (answer (acceptRequest code tag s)).2
        (acceptRequest code tag s) := takeRequest_ready _ _ _ _ h

@[simp] theorem notice_lines (kind : NoticeKind) (payload : List Byte) (s : State) :
    (notice kind payload s).lines = s.lines := by rw [notice_eq]

@[simp] theorem notice_stations (kind : NoticeKind) (payload : List Byte) (s : State) :
    (notice kind payload s).stations = s.stations := by rw [notice_eq]

@[simp] theorem notice_profiles (kind : NoticeKind) (payload : List Byte) (s : State) :
    (notice kind payload s).profiles = s.profiles := by rw [notice_eq]

@[simp] theorem notice_points (kind : NoticeKind) (payload : List Byte) (s : State) :
    (notice kind payload s).points = s.points := by rw [notice_eq]

@[simp] theorem notice_staleLimits (kind : NoticeKind) (payload : List Byte) (s : State) :
    (notice kind payload s).staleLimits = s.staleLimits := by rw [notice_eq]

@[simp] theorem notice_outputs (kind : NoticeKind) (payload : List Byte) (s : State) :
    (notice kind payload s).outputs = s.outputs := by rw [notice_eq]

@[simp] theorem notice_lampLines (kind : NoticeKind) (payload : List Byte) (s : State) :
    (notice kind payload s).lampLines = s.lampLines := by rw [notice_eq]

@[simp] theorem notice_groups (kind : NoticeKind) (payload : List Byte) (s : State) :
    (notice kind payload s).groups = s.groups := by rw [notice_eq]

@[simp] theorem notice_permitPins (kind : NoticeKind) (payload : List Byte) (s : State) :
    (notice kind payload s).permitPins = s.permitPins := by rw [notice_eq]

@[simp] theorem notice_owners (kind : NoticeKind) (payload : List Byte) (s : State) :
    (notice kind payload s).owners = s.owners := by rw [notice_eq]

@[simp] theorem notice_ops (kind : NoticeKind) (payload : List Byte) (s : State) :
    (notice kind payload s).ops = s.ops := by rw [notice_eq]

@[simp] theorem notice_results (kind : NoticeKind) (payload : List Byte) (s : State) :
    (notice kind payload s).results = s.results := by rw [notice_eq]

@[simp] theorem notice_cab (kind : NoticeKind) (payload : List Byte) (s : State) :
    (notice kind payload s).cab = s.cab := by rw [notice_eq]

@[simp] theorem notice_hub (kind : NoticeKind) (payload : List Byte) (s : State) :
    (notice kind payload s).hub = s.hub := by rw [notice_eq]

@[simp] theorem notice_raw (kind : NoticeKind) (payload : List Byte) (s : State) :
    (notice kind payload s).raw = s.raw := by rw [notice_eq]

@[simp] theorem notice_store (kind : NoticeKind) (payload : List Byte) (s : State) :
    (notice kind payload s).store = s.store := by rw [notice_eq]

@[simp] theorem notice_held (kind : NoticeKind) (payload : List Byte) (s : State) :
    (notice kind payload s).held = s.held := by rw [notice_eq]

@[simp] theorem notice_now (kind : NoticeKind) (payload : List Byte) (s : State) :
    (notice kind payload s).now = s.now := by rw [notice_eq]

@[simp] theorem notice_choices (kind : NoticeKind) (payload : List Byte) (s : State) :
    (notice kind payload s).choices = s.choices := by rw [notice_eq]

@[simp] theorem notice_pending (kind : NoticeKind) (payload : List Byte) (s : State) :
    (notice kind payload s).pending = s.pending := by rw [notice_eq]

@[simp] theorem uncountedReply_lines (code tag : Byte) (st : Status) (s : State) :
    (uncountedReply code tag st s).lines = s.lines := by rw [uncountedReply_eq]

@[simp] theorem uncountedReply_stations (code tag : Byte) (st : Status) (s : State) :
    (uncountedReply code tag st s).stations = s.stations := by rw [uncountedReply_eq]

@[simp] theorem uncountedReply_profiles (code tag : Byte) (st : Status) (s : State) :
    (uncountedReply code tag st s).profiles = s.profiles := by rw [uncountedReply_eq]

@[simp] theorem uncountedReply_points (code tag : Byte) (st : Status) (s : State) :
    (uncountedReply code tag st s).points = s.points := by rw [uncountedReply_eq]

@[simp] theorem uncountedReply_staleLimits (code tag : Byte) (st : Status) (s : State) :
    (uncountedReply code tag st s).staleLimits = s.staleLimits := by rw [uncountedReply_eq]

@[simp] theorem uncountedReply_outputs (code tag : Byte) (st : Status) (s : State) :
    (uncountedReply code tag st s).outputs = s.outputs := by rw [uncountedReply_eq]

@[simp] theorem uncountedReply_lampLines (code tag : Byte) (st : Status) (s : State) :
    (uncountedReply code tag st s).lampLines = s.lampLines := by rw [uncountedReply_eq]

@[simp] theorem uncountedReply_groups (code tag : Byte) (st : Status) (s : State) :
    (uncountedReply code tag st s).groups = s.groups := by rw [uncountedReply_eq]

@[simp] theorem uncountedReply_permitPins (code tag : Byte) (st : Status) (s : State) :
    (uncountedReply code tag st s).permitPins = s.permitPins := by rw [uncountedReply_eq]

@[simp] theorem uncountedReply_owners (code tag : Byte) (st : Status) (s : State) :
    (uncountedReply code tag st s).owners = s.owners := by rw [uncountedReply_eq]

@[simp] theorem uncountedReply_ops (code tag : Byte) (st : Status) (s : State) :
    (uncountedReply code tag st s).ops = s.ops := by rw [uncountedReply_eq]

@[simp] theorem uncountedReply_results (code tag : Byte) (st : Status) (s : State) :
    (uncountedReply code tag st s).results = s.results := by rw [uncountedReply_eq]

@[simp] theorem uncountedReply_cab (code tag : Byte) (st : Status) (s : State) :
    (uncountedReply code tag st s).cab = s.cab := by rw [uncountedReply_eq]

@[simp] theorem uncountedReply_hub (code tag : Byte) (st : Status) (s : State) :
    (uncountedReply code tag st s).hub = s.hub := by rw [uncountedReply_eq]

@[simp] theorem uncountedReply_raw (code tag : Byte) (st : Status) (s : State) :
    (uncountedReply code tag st s).raw = s.raw := by rw [uncountedReply_eq]

@[simp] theorem uncountedReply_store (code tag : Byte) (st : Status) (s : State) :
    (uncountedReply code tag st s).store = s.store := by rw [uncountedReply_eq]

@[simp] theorem uncountedReply_held (code tag : Byte) (st : Status) (s : State) :
    (uncountedReply code tag st s).held = s.held := by rw [uncountedReply_eq]

@[simp] theorem uncountedReply_now (code tag : Byte) (st : Status) (s : State) :
    (uncountedReply code tag st s).now = s.now := by rw [uncountedReply_eq]

@[simp] theorem uncountedReply_choices (code tag : Byte) (st : Status) (s : State) :
    (uncountedReply code tag st s).choices = s.choices := by rw [uncountedReply_eq]

@[simp] theorem uncountedReply_pending (code tag : Byte) (st : Status) (s : State) :
    (uncountedReply code tag st s).pending = s.pending := by rw [uncountedReply_eq]

@[simp] theorem replyBytes_lines (code tag : Byte) (st : Status) (body : List Byte) (s : State) :
    (replyBytes code tag st body s).lines = s.lines := rfl

@[simp] theorem replyBytes_stations (code tag : Byte) (st : Status) (body : List Byte) (s : State) :
    (replyBytes code tag st body s).stations = s.stations := rfl

@[simp] theorem replyBytes_profiles (code tag : Byte) (st : Status) (body : List Byte) (s : State) :
    (replyBytes code tag st body s).profiles = s.profiles := rfl

@[simp] theorem replyBytes_points (code tag : Byte) (st : Status) (body : List Byte) (s : State) :
    (replyBytes code tag st body s).points = s.points := rfl

@[simp] theorem replyBytes_staleLimits (code tag : Byte) (st : Status) (body : List Byte) (s : State) :
    (replyBytes code tag st body s).staleLimits = s.staleLimits := rfl

@[simp] theorem replyBytes_outputs (code tag : Byte) (st : Status) (body : List Byte) (s : State) :
    (replyBytes code tag st body s).outputs = s.outputs := rfl

@[simp] theorem replyBytes_lampLines (code tag : Byte) (st : Status) (body : List Byte) (s : State) :
    (replyBytes code tag st body s).lampLines = s.lampLines := rfl

@[simp] theorem replyBytes_groups (code tag : Byte) (st : Status) (body : List Byte) (s : State) :
    (replyBytes code tag st body s).groups = s.groups := rfl

@[simp] theorem replyBytes_permitPins (code tag : Byte) (st : Status) (body : List Byte) (s : State) :
    (replyBytes code tag st body s).permitPins = s.permitPins := rfl

@[simp] theorem replyBytes_owners (code tag : Byte) (st : Status) (body : List Byte) (s : State) :
    (replyBytes code tag st body s).owners = s.owners := rfl

@[simp] theorem replyBytes_ops (code tag : Byte) (st : Status) (body : List Byte) (s : State) :
    (replyBytes code tag st body s).ops = s.ops := rfl

@[simp] theorem replyBytes_results (code tag : Byte) (st : Status) (body : List Byte) (s : State) :
    (replyBytes code tag st body s).results = s.results := rfl

@[simp] theorem replyBytes_cab (code tag : Byte) (st : Status) (body : List Byte) (s : State) :
    (replyBytes code tag st body s).cab = s.cab := rfl

@[simp] theorem replyBytes_hub (code tag : Byte) (st : Status) (body : List Byte) (s : State) :
    (replyBytes code tag st body s).hub = s.hub := rfl

@[simp] theorem replyBytes_raw (code tag : Byte) (st : Status) (body : List Byte) (s : State) :
    (replyBytes code tag st body s).raw = s.raw := rfl

@[simp] theorem replyBytes_store (code tag : Byte) (st : Status) (body : List Byte) (s : State) :
    (replyBytes code tag st body s).store = s.store := rfl

@[simp] theorem replyBytes_held (code tag : Byte) (st : Status) (body : List Byte) (s : State) :
    (replyBytes code tag st body s).held = s.held := rfl

@[simp] theorem replyBytes_now (code tag : Byte) (st : Status) (body : List Byte) (s : State) :
    (replyBytes code tag st body s).now = s.now := rfl

@[simp] theorem replyBytes_choices (code tag : Byte) (st : Status) (body : List Byte) (s : State) :
    (replyBytes code tag st body s).choices = s.choices := rfl

@[simp] theorem replyBytes_pending (code tag : Byte) (st : Status) (body : List Byte) (s : State) :
    (replyBytes code tag st body s).pending = s.pending := rfl

@[simp] theorem acceptRequest_lines (code tag : Byte) (s : State) :
    (acceptRequest code tag s).lines = s.lines := rfl

@[simp] theorem acceptRequest_stations (code tag : Byte) (s : State) :
    (acceptRequest code tag s).stations = s.stations := rfl

@[simp] theorem acceptRequest_profiles (code tag : Byte) (s : State) :
    (acceptRequest code tag s).profiles = s.profiles := rfl

@[simp] theorem acceptRequest_points (code tag : Byte) (s : State) :
    (acceptRequest code tag s).points = s.points := rfl

@[simp] theorem acceptRequest_staleLimits (code tag : Byte) (s : State) :
    (acceptRequest code tag s).staleLimits = s.staleLimits := rfl

@[simp] theorem acceptRequest_outputs (code tag : Byte) (s : State) :
    (acceptRequest code tag s).outputs = s.outputs := rfl

@[simp] theorem acceptRequest_lampLines (code tag : Byte) (s : State) :
    (acceptRequest code tag s).lampLines = s.lampLines := rfl

@[simp] theorem acceptRequest_groups (code tag : Byte) (s : State) :
    (acceptRequest code tag s).groups = s.groups := rfl

@[simp] theorem acceptRequest_permitPins (code tag : Byte) (s : State) :
    (acceptRequest code tag s).permitPins = s.permitPins := rfl

@[simp] theorem acceptRequest_owners (code tag : Byte) (s : State) :
    (acceptRequest code tag s).owners = s.owners := rfl

@[simp] theorem acceptRequest_ops (code tag : Byte) (s : State) :
    (acceptRequest code tag s).ops = s.ops := rfl

@[simp] theorem acceptRequest_results (code tag : Byte) (s : State) :
    (acceptRequest code tag s).results = s.results := rfl

@[simp] theorem acceptRequest_cab (code tag : Byte) (s : State) :
    (acceptRequest code tag s).cab = s.cab := rfl

@[simp] theorem acceptRequest_hub (code tag : Byte) (s : State) :
    (acceptRequest code tag s).hub = s.hub := rfl

@[simp] theorem acceptRequest_raw (code tag : Byte) (s : State) :
    (acceptRequest code tag s).raw = s.raw := rfl

@[simp] theorem acceptRequest_store (code tag : Byte) (s : State) :
    (acceptRequest code tag s).store = s.store := rfl

@[simp] theorem acceptRequest_held (code tag : Byte) (s : State) :
    (acceptRequest code tag s).held = s.held := rfl

@[simp] theorem acceptRequest_now (code tag : Byte) (s : State) :
    (acceptRequest code tag s).now = s.now := rfl

@[simp] theorem acceptRequest_choices (code tag : Byte) (s : State) :
    (acceptRequest code tag s).choices = s.choices := rfl

@[simp] theorem acceptRequest_pending (code tag : Byte) (s : State) :
    (acceptRequest code tag s).pending = s.pending := rfl

@[simp] theorem hearRequest_lines (s : State) :
    (hearRequest s).lines = s.lines := rfl

@[simp] theorem hearRequest_stations (s : State) :
    (hearRequest s).stations = s.stations := rfl

@[simp] theorem hearRequest_profiles (s : State) :
    (hearRequest s).profiles = s.profiles := rfl

@[simp] theorem hearRequest_points (s : State) :
    (hearRequest s).points = s.points := rfl

@[simp] theorem hearRequest_staleLimits (s : State) :
    (hearRequest s).staleLimits = s.staleLimits := rfl

@[simp] theorem hearRequest_outputs (s : State) :
    (hearRequest s).outputs = s.outputs := rfl

@[simp] theorem hearRequest_lampLines (s : State) :
    (hearRequest s).lampLines = s.lampLines := rfl

@[simp] theorem hearRequest_groups (s : State) :
    (hearRequest s).groups = s.groups := rfl

@[simp] theorem hearRequest_permitPins (s : State) :
    (hearRequest s).permitPins = s.permitPins := rfl

@[simp] theorem hearRequest_owners (s : State) :
    (hearRequest s).owners = s.owners := rfl

@[simp] theorem hearRequest_ops (s : State) :
    (hearRequest s).ops = s.ops := rfl

@[simp] theorem hearRequest_results (s : State) :
    (hearRequest s).results = s.results := rfl

@[simp] theorem hearRequest_cab (s : State) :
    (hearRequest s).cab = s.cab := rfl

@[simp] theorem hearRequest_hub (s : State) :
    (hearRequest s).hub = s.hub := rfl

@[simp] theorem hearRequest_raw (s : State) :
    (hearRequest s).raw = s.raw := rfl

@[simp] theorem hearRequest_store (s : State) :
    (hearRequest s).store = s.store := rfl

@[simp] theorem hearRequest_held (s : State) :
    (hearRequest s).held = s.held := rfl

@[simp] theorem hearRequest_now (s : State) :
    (hearRequest s).now = s.now := rfl

@[simp] theorem hearRequest_choices (s : State) :
    (hearRequest s).choices = s.choices := rfl

@[simp] theorem hearRequest_pending (s : State) :
    (hearRequest s).pending = s.pending := rfl

@[simp] theorem replyBytes_table (code tag : Byte) (st : Status) (body : List Byte) (s : State) :
    (replyBytes code tag st body s).port.table = s.port.table := rfl

@[simp] theorem replyBytes_fifo (code tag : Byte) (st : Status) (body : List Byte) (s : State) :
    (replyBytes code tag st body s).port.fifo
      = s.port.fifo ++ [⟨.countedReply, code, tag, statusCode st :: body, false, false⟩] := rfl

@[simp] theorem acceptRequest_table (code tag : Byte) (s : State) :
    (acceptRequest code tag s).port.table = s.port.table ++ [⟨code, tag⟩] := rfl

@[simp] theorem acceptRequest_fifo (code tag : Byte) (s : State) :
    (acceptRequest code tag s).port.fifo = s.port.fifo := rfl

end Sys2Proof.Machine
end

