-- ==== Sys2Proof/Laws/StepClosure.lean ====
section
/-! SUPPORT. Every command keeps every predicate that is closed under the primitive updates commands are made of:
one induction, from which each invariant of the hub follows by its own few closure facts. -/

namespace Sys2Proof.Laws

open Sys2Proof Sys2Proof.Machine Sys2Proof.Safety

/-- Closed also under the updates that stations, cycles, verdicts and the teardown are made of. -/
structure Link (P : State → Prop) : Prop extends Inner P where
  line : ∀ l f s, P s → P (updLine l f s)
  outAny : ∀ k f s, P s → P (updOut k f s)
  sampled : ∀ s pts, pts.length = s.points.length → P s → P { s with points := pts }
  station : ∀ k f s, (f (s.stations.get k)).transfer.isSome = (s.stations.get k).transfer.isSome → P s →
    P (updStation k f s)
  settle : ∀ k st body s, P s → P (endTransfer k st body s)
  stale : ∀ x s, P s → P { s with staleLimits := x }
  raw : ∀ x s, P s → P { s with raw := x }
  choices : ∀ x s, P s → P { s with choices := x }
  time : ∀ x s, P s → P { s with now := x }

/-- Closed under a counted reply, which may need room: `R` is `P` in a state that owes one more (R184, R188). -/
structure Answered (P R : State → Prop) : Prop where
  reply : ∀ code tag st body s, R s → P (replyBytes code tag st body s)

/-- Closed also under the change of mode that a teardown ends with. -/
structure Torn (P R : State → Prop) : Prop extends Link P, Answered P R where
  roomLink : Link R
  unchange : ∀ m s, s.hub.change.isSome = true → P s → R { s with hub := ⟨m, none⟩ }

/-- Closed also under what timers, and the port's parts other than table and FIFO, are made of. -/
structure Timed (P : State → Prop) : Prop extends Inner P where
  timeTo : ∀ x s, P s → P { s with now := x }
  portRest : ∀ f s, (f s.port).table = s.port.table → (f s.port).fifo = s.port.fifo → P s → P (updPort f s)

/-- Closed also under the updates that the requests and timers of groups, owners, operations and the alert are
made of. -/
structure Served (P R : State → Prop) : Prop extends Timed P, Answered P R where
  roomTimed : Timed R
  accept : ∀ code tag s, tagHeld tag s = false → s.port.table.length < 8 → P s → R (enterTable code tag s)
  uncounted : ∀ code tag st s, P s → P (uncountedReply code tag st s)

/-- Closed under every primitive update of a command. -/
structure Closed (P R : State → Prop) : Prop extends Torn P R, Served P R where
  lamps : ∀ x s, P s → P { s with lampLines := x }
  roomLamps : ∀ x s, R s → R { s with lampLines := x }
  working : ∀ w s, R s → R { s with store := { s.store with working := w } }
  change : ∀ c s, s.hub.change = none → R s → P { s with hub := { s.hub with change := some c } }
  transfer : ∀ k x s, (s.stations.get k).transfer = none → R s →
    P (updStation k (fun r => { r with transfer := some x }) s)
  save : ∀ tag s, s.store.save = none → R s →
    P { s with store := { s.store with save := some ⟨⟨s.store.working, s.profiles⟩, tag⟩ } }
  written : ∀ v s, s.store.save = some v → P s →
    R { s with store := { s.store with image := some v.snapshot, invalid := false, save := none } }
  unwritten : ∀ s, s.store.save.isSome = true → P s →
    R { s with store := { s.store with image := none, invalid := true, save := none } }
  drop : ∀ s, R s → R (dropTimedWork s)
  profiles : ∀ ps s, (TableSorted s.profiles → TableSorted ps) → R s → R { s with profiles := ps }
  begun : ∀ s, P s → P (updPort beginHead s)
  sent : ∀ s, P s → P (updPort sendHead s)
  fall : ∀ s, P s → P (resetPinFall s)
  reset : ∀ a b c s, P s → P (resetHub a b c s)

section Links

variable {P : State → Prop} (h : Link P)

include h

/-! ### Change sets of samples, mappings and ageing -/

theorem commitAny_keeps (new : List Point) (s : State) (hn : new.length = s.points.length) (hs : P s) :
    P (commitPoints new s).1 :=
  foldl_keeps _ (pointNotice_keeps h.toImage) _ _ (h.sampled _ _ (by simpa using hn) hs)

theorem deliverPoints_keeps (new : List Point) (s : State) (hn : new.length = s.points.length) (hs : P s) :
    P (deliverPoints new s) :=
  cabReads_keeps h.toInner _ _ (interlockReads_keeps h.toInner _ _ (commitAny_keeps h _ _ hn hs))

/-! ### Stations -/

theorem stationNotice_keeps (k : Stn) (s : State) (hs : P s) : P (stationNotice k s) := h.notice _ _ _ hs

theorem reportCabStation_keeps (st : StationState) (s : State) (hs : P s) : P (reportCabStation st s) := by
  unfold reportCabStation; dsimp only; split
  · exact offerCabWrites_keeps h.toPanel _ (h.cab _ _ hs)
  · exact h.cab _ _ hs

theorem reportScanned_keeps (k : Stn) (old : StationState) (s : State) (hs : P s) :
    P (reportScanned k old s) := by
  unfold reportScanned; dsimp only
  split
  · exact hs
  · have h1 : P (if (isOnline old && isOnline (stateOf s k)) = true then s else stationNotice k s) := by
      split
      · exact hs
      · exact stationNotice_keeps h _ _ hs
    split
    · split
      · exact evaluate_keeps h.toLocal _ _ h1
      · exact h1
    · exact reportCabStation_keeps h _ _ h1

theorem departGroup_keeps (g : Group) (s : State) (hs : P s) : P (departGroup g s) := by
  unfold departGroup
  split
  · split
    · dsimp only; split
      · exact endOperation_keeps h.toLocal _ _ _ (evaluate_keeps h.toLocal _ _ (h.choices _ _ hs))
      · exact evaluate_keeps h.toLocal _ _ (endOperation_keeps h.toLocal _ _ _ (h.choices _ _ hs))
    · exact evaluate_keeps h.toLocal _ _ (endOperation_keeps h.toLocal _ _ _ hs)
  · exact evaluate_keeps h.toLocal _ _ hs

theorem stationFault_keeps (k : Stn) (s : State) (hs : P s) : P (stationFault k s) := by
  unfold stationFault; dsimp only; split
  · exact raiseAlert_keeps h.toPanel _ _ hs
  · exact hs

theorem endTransfer_keeps (k : Stn) (st : Status) (body : List Byte) (s : State) (hs : P s) :
    P (endTransfer k st body s) := by
  exact h.settle _ _ _ _ hs

theorem departWindow_keeps (new : StationState) (p : Option Profile) (s : State) (hs : P s) :
    P (departWindow new p s) := by
  unfold departWindow; split
  · refine commitAny_keeps h _ _ ?_ hs
    split <;> simp
  · exact hs

theorem leave_keeps (k : Stn) (new : StationState) (cause : LastCause) (s : State) (hs : P s) :
    P (leave k new cause s) := by
  unfold leave
  dsimp only
  generalize (if new = StationState.holdoff then some (s.now + retryLength s k) else none) = expiry
  generalize profileOf s k = prof
  generalize groupAt s k = grp
  generalize (isOnline (stateOf s k) && _) = loaded
  generalize isOnline (stateOf s k) = online
  have h1 : P (departWindow new prof (updStation k (departRecord new cause expiry)
      (endTransfer k .linkLost [] (updOut k (departOut (decide (new = .absent)))
        (updLine (lineOf k) (departEngine k) s))))) :=
    departWindow_keeps h _ _ _ (h.station _ _ _ rfl (endTransfer_keeps h _ _ _ _ (h.outAny _ _ _ (h.line _ _ _ hs))))
  generalize departWindow new prof _ = s1 at h1 ⊢
  have h2 : P (stationNotice k (if new = .absent then
      { s1 with staleLimits := s1.staleLimits.set k none, raw := s1.raw.set k none } else s1)) := by
    refine stationNotice_keeps h _ _ ?_
    split
    · exact h.raw (s1.raw.set k none) _ (h.stale (s1.staleLimits.set k none) _ h1)
    · exact h1
  generalize stationNotice k _ = s2 at h2 ⊢
  have h3 : P (if loaded = true then raiseAlert .linkLostLoaded s2 else s2) := by
    split
    · exact raiseAlert_keeps h.toPanel _ _ h2
    · exact h2
  generalize (if loaded = true then raiseAlert .linkLostLoaded s2 else s2) = s3 at h3 ⊢
  have last : ∀ u, P u → P (if new = .fault then stationFault k u else u) ∧
      P (reportCabStation new (if online = true then cabLost u else u)) := fun u hu => by
    refine ⟨?_, reportCabStation_keeps h _ _ ?_⟩ <;> split
    · exact stationFault_keeps h _ _ hu
    · exact hu
    · exact cabLost_keeps h.toInner _ hu
    · exact hu
  cases grp with
  | none =>
    have h4 := last _ (h.station k (dropProfile new) _ rfl h3)
    dsimp only
    cases lineOf k with
    | s => exact h4.1
    | c => exact h4.2
  | some g =>
    have h4 := h.station k (dropProfile new) _ rfl (departGroup_keeps h g _ h3)
    dsimp only
    generalize updStation k (dropProfile new) _ = s4 at h4 ⊢
    have h5 : P (if new = .absent then unbindGroup g s4 else s4) := by
      split
      · exact unbindGroup_keeps h.toInner _ _ h4
      · exact h4
    cases lineOf k with
    | s => exact (last _ h5).1
    | c => exact (last _ h5).2

theorem leaveUnlessAbsent_keeps (cause : LastCause) (s : State) (k : Stn) (hs : P s) :
    P (leaveUnlessAbsent cause s k) := by
  unfold leaveUnlessAbsent; split
  · exact hs
  · exact leave_keeps h _ _ _ _ hs

theorem plugRise_keeps (s : State) (hs : P s) : P (plugRise s) := by
  unfold plugRise suspend; exact h.line _ _ _ hs

theorem plugFall_keeps (s : State) (hs : P s) : P (plugFall s) :=
  foldl_keeps _ (leaveUnlessAbsent_keeps h _) _ _ (h.line _ _ _ hs)

theorem refuseStation_keeps (k : Stn) (r : RefusalReason) (s : State) (hs : P s) :
    P (refuseStation k r s) := by
  have h1 := h.station k (fun x => { x with state := .refused, refusal := some r, lastCause := .refused }) s rfl hs
  unfold refuseStation; dsimp only
  split
  · exact h1
  · have h2 := stationNotice_keeps h k _ h1
    split
    · exact h2
    · split
      · exact h2
      · exact reportCabStation_keeps h _ _ h2

theorem joinStation_keeps (k : Stn) (ref : Option ProfileRef) (s : State) (hs : P s) :
    P (joinStation k ref s) := h.line _ _ _ (h.station _ _ _ rfl hs)

theorem admitStation_keeps (k : Stn) (ref : ProfileRef) (s : State) (hs : P s) :
    P (admitStation k ref s) := by
  have h0 := joinStation_keeps h k (some ref) s hs
  unfold admitStation; dsimp only
  generalize joinStation k (some ref) s = s0 at h0 ⊢
  split
  · exact h0
  · rename_i p _
    have h1 : P (stationNotice k (commitQuiet (mapProfileWindow k p s0.points)
        { s0 with staleLimits := s0.staleLimits.set k (some (staleLimit p.maxAgeMs
          (s0.lines.get (lineOf k)).inForce.period)) })) :=
      stationNotice_keeps h _ _ (commitAny_keeps h _ _ (by simp) (h.stale _ _ h0))
    generalize stationNotice k _ = s1 at h1 ⊢
    cases lineOf k with
    | s => exact resync_keeps h.toImage _ _ (h.outAny _ _ _ (bindGroup_keeps h.toLocal _ _ h1))
    | c => exact reportCabStation_keeps h _ _ (resync_keeps h.toImage _ _ (h.outAny _ _ _ h1))

theorem admitCommission_keeps (k : Stn) (i : Identity) (s : State) (hs : P s) :
    P (admitCommission k i s) := by
  have h1 : P (stationNotice k { updOut k (fun _ => admitOutCommission i.outputs) (joinStation k none s) with
      raw := (updOut k (fun _ => admitOutCommission i.outputs) (joinStation k none s)).raw.set k
        (some ⟨none, false, 0⟩) }) :=
    stationNotice_keeps h _ _ (h.raw _ _ (h.outAny _ _ _ (joinStation_keeps h _ _ _ hs)))
  unfold admitCommission; dsimp only at h1 ⊢
  split
  · exact h1
  · exact reportCabStation_keeps h _ _ h1

theorem admission_keeps (k : Stn) (i : Identity) (s : State) (hs : P s) : P (admission k i s) := by
  have h1 := h.station k (fun r => { r with identity := some i }) s rfl hs
  unfold admission; dsimp only
  split
  · split
    · exact admitCommission_keeps h _ _ _ h1
    · exact refuseStation_keeps h _ _ _ h1
  · split
    · exact admitStation_keeps h _ _ _ h1
    · exact refuseStation_keeps h _ _ _ h1

theorem ageStation_keeps (s : State) (k : Stn) (hs : P s) : P (ageStation s k) := by
  have h1 := h.raw (s.raw.set k ((s.raw.get k).map (fun r => { r with age := satSucc 255 r.age }))) s hs
  unfold ageStation; dsimp only
  split
  · split
    · exact deliverPoints_keeps h _ _ (by simp) (h.stale _ _ h1)
    · exact h1
  · exact h1

theorem startCycle_keeps (l : Line) (s : State) (hs : P s) : P (startCycle l s) := by
  have h1 : P ((lineStations l).foldl ageStation (updLine l (takeUp s) s)) :=
    foldl_keeps _ (ageStation_keeps h) _ _ (h.line _ _ _ hs)
  cases l with
  | s => exact h1
  | c => exact offerCabWrites_keeps h.toPanel _ h1

theorem tearLine_keeps (l : Line) (s : State) (hs : P s) : P (tearLine l s) :=
  foldl_keeps _ (fun _ _ hs => h.station _ _ _ rfl (leaveUnlessAbsent_keeps h _ _ _ hs)) _ _ (h.line _ _ _ hs)

/-! ### The lines -/

theorem sendRequest_keeps (k : Stn) (x : SlotKind) (n : Nat) (kind : FrameKind) (pl : List Byte) (s : State)
    (hs : P s) : P (sendRequest k x n kind pl s) := by
  unfold sendRequest openSlot; exact h.line _ _ _ hs

theorem stationSlot_keeps (k : Stn) (s : State) (hs : P s) : P (stationSlot k s) := by
  unfold stationSlot; split
  · exact hs
  · split
    · exact sendRequest_keeps h _ _ _ _ _ _ (h.outAny _ _ _ hs)
    · exact h.line _ _ _ hs

theorem probeSlot_keeps (l : Line) (s : State) (hs : P s) : P (probeSlot l s) := by
  unfold probeSlot; split
  · exact hs
  · split
    · exact sendRequest_keeps h _ _ _ _ _ _ (h.line _ _ _ hs)
    · exact h.line _ _ _ hs

theorem paramSlot_keeps (l : Line) (s : State) (hs : P s) : P (paramSlot l s) := by
  unfold paramSlot; split
  · exact hs
  · split
    · split
      · rename_i t ht
        exact sendRequest_keeps h _ _ _ _ _ _ (h.station _ _ _ (by simp [ht]) (h.line _ _ _ hs))
      · exact hs
    · exact h.line _ _ _ hs

theorem degrade_keeps (k : Stn) (n : Nat) (s : State) (hs : P s) : P (degrade k n s) :=
  reportScanned_keeps h _ _ _ (h.station _ _ _ rfl hs)

theorem noteLimit_keeps (k : Stn) (s : State) (hs : P s) : P (noteLimit k s) := by
  unfold noteLimit; split
  · exact hs
  · exact stationNotice_keeps h _ _ (h.station _ _ _ rfl hs)

theorem scanMissed_keeps (k : Stn) (r : MissReason) (s : State) (hs : P s) : P (scanMissed k r s) := by
  have h1 := h.station k (fun x => { x with lastMiss := some r }) s rfl hs
  unfold scanMissed; dsimp only
  generalize updStation k _ s = s1 at h1 ⊢
  split
  · exact degrade_keeps h _ _ _ h1
  · split
    · exact leave_keeps h _ _ _ _ (h.station _ _ _ rfl h1)
    · exact leave_keeps h _ _ _ _ (h.station _ _ _ rfl h1)
    · exact noteLimit_keeps h _ _ (degrade_keeps h _ _ _ h1)
    · exact degrade_keeps h _ _ _ h1

theorem answerOutputs_keeps (k : Stn) (echo : BitVec 4) (safe : Bool) (s : State) (hs : P s) :
    P (answerOutputs k echo safe s) := by
  unfold answerOutputs; dsimp only
  have h1 := h.outAny k (fun _ => (ackOut echo (outOf s k)).1) s hs
  generalize updOut k _ s = s1 at h1 ⊢
  have h2 : P (match (ackOut echo (outOf s k)).2 with
      | some b => noteBatch k b (reportSettled k (settledOutputs b (ackOut echo (outOf s k)).1.list) s1)
      | none => s1) := by
    split
    · exact noteBatch_keeps h.toLocal _ _ _ (reportSettled_keeps h.toImage _ _ _ h1)
    · exact h1
  split
  · exact resync_keeps h.toImage _ _ h2
  · exact h2

theorem answerSamples_keeps (k : Stn) (a : ScanReport) (s : State) (hs : P s) : P (answerSamples k a s) := by
  unfold answerSamples; split
  · exact h.raw _ _ hs
  · split
    · exact deliverPoints_keeps h _ _ (by simp) hs
    · exact hs

theorem scanGood_keeps (k : Stn) (a : ScanReport) (s : State) (hs : P s) : P (scanGood k a s) :=
  answerSamples_keeps h _ _ _ (answerOutputs_keeps h _ _ _ _ (reportScanned_keeps h _ _ _ (h.station _ _ _ rfl hs)))

theorem withSlot_keeps (l : Line) (f : Slot → State → State) (hf : ∀ x s, P s → P (f x s)) (s : State)
    (hs : P s) : P (withSlot l f s) := by
  unfold withSlot; split
  · split
    · exact hs
    · exact hf _ _ (h.line _ _ _ hs)
  · exact hs

theorem scanVerdict_keeps (l : Line) (rx : List RxByte) (s : State) (hs : P s) : P (scanVerdict l rx s) := by
  unfold scanVerdict; split
  · refine withSlot_keeps h _ _ (fun x s hs => ?_) _ hs
    split
    · exact hs
    · split
      · exact scanGood_keeps h _ _ _ hs
      · exact scanMissed_keeps h _ _ _ hs
  · exact hs

theorem probeVerdict_keeps (l : Line) (rx : List RxByte) (s : State) (hs : P s) :
    P (probeVerdict l rx s) := by
  unfold probeVerdict; split
  · refine withSlot_keeps h _ _ (fun x s hs => ?_) _ hs
    split
    · split
      · exact admission_keeps h _ _ _ hs
      · exact hs
    · exact hs
  · exact hs

theorem settleParam_keeps (k : Stn) (v : Except MissReason ParamReport) (t : Transfer) (s : State)
    (hs : P s) : P (settleParam k v t s) := by
  unfold settleParam; split
  · exact endTransfer_keeps h _ _ _ _ hs
  · exact endTransfer_keeps h _ _ _ _ hs
  · split
    · exact hs
    · exact endTransfer_keeps h _ _ _ _ hs

theorem paramVerdict_keeps (l : Line) (rx : List RxByte) (s : State) (hs : P s) :
    P (paramVerdict l rx s) := by
  unfold paramVerdict; split
  · refine withSlot_keeps h _ _ (fun x s hs => ?_) _ hs
    split
    · exact hs
    · split
      · exact settleParam_keeps h _ _ _ _ hs
      · exact hs
  · exact hs

/-! ### Timers and pins -/

theorem holdoffEnds_keeps (k : Stn) (s : State) (hs : P s) : P (holdoffEnds k s) := by
  unfold holdoffEnds; split
  · exact leave_keeps h _ _ _ _ (h.station _ _ _ rfl (h.time _ _ hs))
  · exact hs

theorem setInput_keeps (k : Nat) (level : Bool) (f : Point → Point) (s : State) (hs : P s) :
    P (setInput k level f s) := by
  have h1 : P (deliverPoints (setPoint k f s.points) s) := deliverPoints_keeps h _ _ (by simp) hs
  unfold setInput; dsimp only; split
  · unfold plugFlip; split
    · split
      · exact plugRise_keeps h _ h1
      · exact plugFall_keeps h _ h1
    · exact h1
  · exact h1

theorem sampleInputs_keeps (lin : Byte) (s : State) (hs : P s) : P (sampleInputs lin s) :=
  foldl_keeps _ (fun _ _ hs => setInput_keeps h _ _ _ _ hs) _ _ (h.time _ _ hs)

end Links

section Teardowns

variable {P R : State → Prop} (h : Torn P R)

include h

/-! ### The teardown -/

omit h in
theorem link_hub (x : ModeRec) : Link (fun t => t.hub = x) :=
  ⟨⟨⟨⟨⟨fun _ _ _ h => h, fun _ _ _ _ h => h, fun _ _ _ h => by simpa using h⟩, fun _ _ h => h⟩,
    fun _ _ _ _ h => h, fun _ _ h => h, fun _ _ _ h => h, fun _ _ _ _ _ h => h⟩,
    fun _ _ _ h => h, fun _ _ _ _ h => h, fun _ _ _ h => h⟩,
    fun _ _ _ h => h, fun _ _ _ h => h, fun _ _ _ h => h, fun _ _ _ _ h => h,
    fun _ _ _ _ h => by unfold endTransfer; split <;> exact h,
    fun _ _ h => h, fun _ _ h => h, fun _ _ h => h, fun _ _ h => h⟩

theorem teardown_keeps (c : ModeChange) (s : State) (hc : s.hub.change.isSome = true) (hs : P s) :
    P (teardown c s) := by
  have h1 := tearLine_keeps h.toLink .c _ (tearLine_keeps h.toLink .s s hs)
  have hh : (tearLine .c (tearLine .s s)).hub = s.hub :=
    (tearLine_keeps (link_hub _) .c _ rfl).trans (tearLine_keeps (link_hub _) .s _ rfl)
  unfold teardown
  dsimp only
  rw [← hh] at hc
  generalize tearLine .c (tearLine .s s) = s1 at h1 hc ⊢
  have h2 : R { s1 with raw := .all none, hub := ⟨c.target, none⟩ } :=
    h.unchange c.target { s1 with raw := .all none } hc (h.raw (.all none) _ h1)
  exact h.notice _ _ _ (h.reply _ _ _ _ _
    (startCycle_keeps h.roomLink _ _ (startCycle_keeps h.roomLink _ _ h2)))

theorem settleChange_keeps (s : State) (hs : P s) : P (settleChange s) := by
  unfold settleChange; split
  · split
    · rename_i c hc _
      exact teardown_keeps h _ _ (by simp [hc]) hs
    · exact hs
  · exact hs

end Teardowns

section Timers

variable {P : State → Prop}

theorem unlessHeld_keeps (f : State → State) (hf : ∀ s, P s → P (f s)) (s : State) (hs : P s) :
    P (unlessHeld f s) := by
  unfold unlessHeld; split
  · exact hs
  · exact hf _ hs

variable (h : Timed P)

include h

/-! ### Timers -/

theorem reachTime_keeps (t : Nat) (s : State) (hs : P s) : P (reachTime t s) := h.timeTo _ _ hs

theorem hearRequest_keeps (s : State) (hs : P s) : P (hearRequest s) := by
  unfold hearRequest restartSilence
  exact h.portRest _ _ rfl rfl (h.portRest _ _ rfl rfl hs)

theorem hostSilence_keeps (s : State) (hs : P s) : P (hostSilence s) := by
  unfold hostSilence; split
  · exact hs
  · exact h.notice _ _ _ (hostSilent_keeps h.toInner _ (h.portRest _ _ rfl rfl (h.timeTo _ _ hs)))

theorem cabLampHalfPeriod_keeps (k : Nat) (s : State) (hs : P s) : P (cabLampHalfPeriod k s) := by
  unfold cabLampHalfPeriod; split
  · exact hs
  · exact setCabLamp_keeps h.toPanel _ _ _ (h.timeTo _ _ hs)

theorem markExpiry_keeps (g : Group) (src : Source) (s : State) (hs : P s) : P (markExpiry g src s) := by
  unfold markExpiry; split
  · exact hs
  · exact setMark_none_keeps h.toInner _ _ _ (h.timeTo _ _ hs)

theorem deadlineReached_keeps (g : Group) (s : State) (hs : P s) : P (deadlineReached g s) := by
  unfold deadlineReached; split
  · exact hs
  · exact endOperation_keeps h.toLocal _ _ _ (h.timeTo _ _ hs)

theorem soundExpiry_keeps (s : State) (hs : P s) : P (soundExpiry s) := by
  unfold soundExpiry; split
  · exact hs
  · rename_i t _
    have h1 : P (updAlert (fun a => { a with count := satSucc 255 a.count }) (reachTime t s)) :=
      h.cab _ _ (h.timeTo _ _ hs)
    dsimp only; split
    · exact mirror_keeps h.toPanel _ (by unfold startRest; exact updAlert_keeps h.toPanel _ _ h1)
    · exact startSound_keeps h.toPanel _ h1

theorem restExpiry_keeps (s : State) (hs : P s) : P (restExpiry s) := by
  unfold restExpiry; split
  · exact hs
  · exact mirror_keeps h.toPanel _ (startSound_keeps h.toPanel _ (h.timeTo _ _ hs))

end Timers

section Requests

variable {P R : State → Prop} (h : Served P R)

include h

/-! ### Requests of groups, owners, operations and the alert -/

theorem takeRequest_keeps (code tag : Byte) (handle : State → State) (hh : ∀ s, R s → P (handle s))
    (s : State) (hs : P s) : P (takeRequest code tag handle s) := by
  have h1 := hearRequest_keeps h.toTimed s hs
  unfold takeRequest
  split
  · exact hs
  · split
    · exact h.uncounted _ _ _ _ h1
    · rename_i ht
      split
      · exact h.uncounted _ _ _ _ h1
      · rename_i hn
        exact hh _ (h.accept _ _ _ (by simpa [tagHeld, hearRequest, restartSilence] using ht)
          (by simpa [hearRequest, restartSilence, tableLimit] using hn) h1)

theorem quickReply_keeps (code tag : Byte) (answer : State → Status × List Byte) (s : State) (hs : P s) :
    P (quickReply code tag answer s) :=
  takeRequest_keeps h _ _ _ (fun _ hs => h.reply _ _ _ _ _ hs) _ hs

theorem claimRead_keeps (tag : Byte) (pl : List Byte) (s : State) (hs : R s) : P (claimRead tag pl s) := by
  unfold claimRead; split
  · exact h.reply _ _ _ _ _ hs
  · split
    · exact h.reply _ _ _ _ _ hs
    · exact h.reply _ _ _ _ _ (claimReadTake_keeps h.roomTimed.toInner _ _ _ hs)

theorem claimSet_keeps (tag : Byte) (pl : List Byte) (s : State) (hs : R s) : P (claimSet tag pl s) := by
  unfold claimSet; split
  · exact h.reply _ _ _ _ _ hs
  · split
    · exact h.reply _ _ _ _ _ hs
    · dsimp only; split
      · exact h.reply _ _ _ _ _ (claimSetTake_keeps h.roomTimed.toInner _ _ _ hs)
      · exact h.reply _ _ _ _ _ (claimSetTake_keeps h.roomTimed.toInner _ _ _ hs)

theorem claimRelease_keeps (tag : Byte) (pl : List Byte) (s : State) (hs : R s) :
    P (claimRelease tag pl s) := by
  unfold claimRelease; split
  · exact h.reply _ _ _ _ _ hs
  · split
    · exact h.reply _ _ _ _ _ (claimReleaseTake_keeps h.roomTimed.toInner _ _ hs)
    · exact h.reply _ _ _ _ _ hs

theorem operate_keeps (tag : Byte) (pl : List Byte) (s : State) (hs : R s) : P (operate tag pl s) := by
  unfold operate; split
  · exact h.reply _ _ _ _ _ hs
  · split
    · exact h.reply _ _ _ _ _ hs
    · exact h.reply _ _ _ _ _ (immediateDone_keeps h.roomTimed.toLocal _ _ _ _ hs)
    · exact evaluate_keeps h.toLocal _ _ (operationNotice_keeps h.toLocal _ _ _ _ _ _ _ _
        (h.reply _ _ _ _ _ (h.roomTimed.op _ _ _ (enterEntries_keeps h.roomTimed.toImage _ _ _ hs))))

theorem opStop_keeps (tag : Byte) (pl : List Byte) (s : State) (hs : R s) : P (opStop tag pl s) := by
  unfold opStop; split
  · exact h.reply _ _ _ _ _ hs
  · split
    · dsimp only; split
      · exact h.reply _ _ _ _ _ (stopOperation_keeps h.roomTimed.toLocal _ _ hs)
      · exact h.reply _ _ _ _ _ (stopOperation_keeps h.roomTimed.toLocal _ _ hs)
    · exact h.reply _ _ _ _ _ hs

theorem resultTake_keeps (tag : Byte) (pl : List Byte) (s : State) (hs : R s) : P (resultTake tag pl s) := by
  unfold resultTake; split
  · exact h.reply _ _ _ _ _ hs
  · exact h.reply _ _ _ _ _ (takeResult_keeps h.roomTimed.toLocal _ _ _ hs)

theorem tripClear_keeps (tag : Byte) (pl : List Byte) (s : State) (hs : R s) : P (tripClear tag pl s) := by
  unfold tripClear; split
  · exact h.reply _ _ _ _ _ hs
  · split
    · exact h.reply _ _ _ _ _ hs
    · exact h.reply _ _ _ _ _ hs
    · exact h.reply _ _ _ _ _ (clearTrip_keeps h.roomTimed.toLocal _ _ hs)

theorem alertAck_keeps (tag : Byte) (pl : List Byte) (s : State) (hs : R s) : P (alertAck tag pl s) := by
  unfold alertAck; split
  · exact h.reply _ _ _ _ _ (ackAlert_keeps h.roomTimed.toPanel _ hs)
  · exact h.reply _ _ _ _ _ hs

end Requests

section Commands

variable {P R : State → Prop} (h : Closed P R)

include h

/-! ### Requests -/

theorem hubStatus_keeps (tag : Byte) (pl : List Byte) (s : State) (hs : R s) : P (hubStatus tag pl s) := by
  unfold hubStatus; split
  · split
    · exact h.reply _ _ _ _ _ hs
    · refine h.reply _ _ _ _ _ ?_
      split
      · exact h.roomTimed.portRest _ _ rfl rfl hs
      · exact hs
  · exact h.reply _ _ _ _ _ hs

theorem hubReset_keeps (tag : Byte) (pl : List Byte) (s : State) (hs : R s) : P (hubReset tag pl s) := by
  unfold hubReset; split
  · exact h.portRest _ _ rfl rfl (h.reply _ _ _ _ _ (h.drop _ hs))
  · exact h.reply _ _ _ _ _ hs

theorem startChange_keeps (m : Mode) (tag : Byte) (s : State) (hn : s.hub.change = none) (hs : R s) :
    P (startChange m tag s) :=
  settleChange_keeps h.toTorn _ (modeLapse_keeps h.toInner _ _ (modeLapse_keeps h.toInner _ _
    (endOperation_keeps h.toLocal _ _ _ (endOperation_keeps h.toLocal _ _ _ (h.change _ _ hn hs)))))

theorem modeSet_keeps (tag : Byte) (pl : List Byte) (s : State) (hs : R s) : P (modeSet tag pl s) := by
  unfold modeSet; split
  · split
    · exact h.reply _ _ _ _ _ hs
    · split
      · exact h.reply _ _ _ _ _ hs
      · rename_i hn
        split
        · exact h.reply _ _ _ _ _ hs
        · exact startChange_keeps h _ _ _ (by simpa using hn) hs
  · exact h.reply _ _ _ _ _ hs

theorem acceptLine_keeps (l : Line) (items : List Item) (s : State) (hs : R s) : R (acceptLine l items s) := by
  unfold acceptLine; split
  · exact h.working _ _ (h.roomLink.line _ _ _ hs)
  · exact hs

theorem applyPlugUsed_keeps (items : List Item) (s : State) (hs : R s) : R (applyPlugUsed items s) := by
  unfold applyPlugUsed; split
  · exact hs
  · split
    · exact plugRise_keeps h.roomLink _ hs
    · split
      · exact plugFall_keeps h.roomLink _ hs
      · exact hs

theorem applySettings_keeps (items : List Item) (s : State) (hs : R s) : R (applySettings items s) := by
  unfold applySettings restartSilence
  exact applyPlugUsed_keeps h _ _ (h.roomTimed.portRest _ _ rfl rfl
    (acceptLine_keeps h _ _ _ (acceptLine_keeps h _ _ _ (h.working _ _ hs))))

theorem settingsSet_keeps (tag : Byte) (pl : List Byte) (s : State) (hs : R s) :
    P (settingsSet tag pl s) := by
  unfold settingsSet; split
  · exact h.reply _ _ _ _ _ hs
  · split
    · exact h.reply _ _ _ _ _ hs
    · dsimp only; split
      · exact settleChange_keeps h.toTorn _ (h.reply _ _ _ _ _ (applySettings_keeps h _ _ hs))
      · exact h.reply _ _ _ _ _ hs

theorem storeSave_keeps (tag : Byte) (pl : List Byte) (s : State) (hs : R s) : P (storeSave tag pl s) := by
  unfold storeSave; split
  · split
    · exact h.reply _ _ _ _ _ hs
    · rename_i hn
      exact h.save _ _ (by simpa using hn) hs
  · exact h.reply _ _ _ _ _ hs

theorem storeWriteEnd_keeps (v : Bool) (s : State) (hs : P s) : P (storeWriteEnd v s) := by
  unfold storeWriteEnd; split
  · exact hs
  · rename_i x hx
    split
    · exact h.reply _ _ _ _ _ (h.written _ _ hx hs)
    · exact h.reply _ _ _ _ _ (h.unwritten _ (by simp [hx]) hs)

theorem stationRestart_keeps (tag : Byte) (pl : List Byte) (s : State) (hs : R s) :
    P (stationRestart tag pl s) := by
  unfold stationRestart; split
  · exact h.reply _ _ _ _ _ hs
  · exact settleChange_keeps h.toTorn _ (h.reply _ _ _ _ _ (leaveUnlessAbsent_keeps h.roomLink _ _ _ (h.roomLink.station _ _ _ rfl hs)))

theorem paramStart_keeps (kind : TransferKind) (tag : Byte) (pl : List Byte) (s : State) (hs : R s) :
    P (paramStart kind tag pl s) := by
  unfold paramStart; dsimp only; split
  · exact h.reply _ _ _ _ _ hs
  · split
    · exact h.reply _ _ _ _ _ hs
    · split
      · exact h.reply _ _ _ _ _ hs
      · split
        · exact h.reply _ _ _ _ _ hs
        · rename_i hn
          exact h.transfer _ _ _ (by simpa using hn) hs

theorem rawWrite_keeps (tag : Byte) (pl : List Byte) (s : State) (hs : R s) : P (rawWrite tag pl s) := by
  unfold rawWrite; split
  · exact h.reply _ _ _ _ _ hs
  · split
    · exact h.reply _ _ _ _ _ hs
    · split
      · exact h.reply _ _ _ _ _ hs
      · split
        · exact h.reply _ _ _ _ _ hs
        · split
          · exact h.reply _ _ _ _ _ hs
          · dsimp only
            refine h.reply _ _ _ _ _ ?_
            split
            · exact h.roomTimed.out _ _ _ (putEntry_lastEcho _) (enterWrite_keeps h.roomTimed.toImage _ _ _ _ hs)
            · exact enterWrite_keeps h.roomTimed.toImage _ _ _ _ hs

theorem clearFlags_keeps (a n : Nat) (s : State) (hs : R s) : R (clearFlags a n s) :=
  h.roomTimed.points _ _ (quiet_mapWindow (fun _ p => { p with changed := false }) (fun _ _ => rfl) _ _ _) hs

theorem pointsRead_keeps (tag : Byte) (pl : List Byte) (s : State) (hs : R s) : P (pointsRead tag pl s) := by
  unfold pointsRead; split
  · dsimp only; split
    · refine h.reply _ _ _ _ _ ?_
      split
      · exact clearFlags_keeps h _ _ _ hs
      · exact hs
    · exact h.reply _ _ _ _ _ hs
  · exact h.reply _ _ _ _ _ hs

theorem changesClear_keeps (tag : Byte) (pl : List Byte) (s : State) (hs : R s) :
    P (changesClear tag pl s) := by
  unfold changesClear; split
  · dsimp only; split
    · exact h.reply _ _ _ _ _ (clearFlags_keeps h _ _ _ hs)
    · exact h.reply _ _ _ _ _ hs
  · exact h.reply _ _ _ _ _ hs

theorem pointNotify_keeps (tag : Byte) (pl : List Byte) (s : State) (hs : R s) :
    P (pointNotify tag pl s) := by
  unfold pointNotify; split
  · split
    · exact h.reply _ _ _ _ _ hs
    · dsimp only; split
      · exact h.reply _ _ _ _ _ hs
      · refine h.reply _ _ _ _ _ (h.roomTimed.points _ _ ?_ hs)
        exact quiet_setPoint _ _ (by intro p; rfl) _
  · exact h.reply _ _ _ _ _ hs

omit h in
theorem setLampLine_keeps {Q : State → Prop} (hi : Image Q) (hl : ∀ x s, Q s → Q { s with lampLines := x })
    (k : Nat) (l : LampRec) (s : State) (hs : Q s) : Q (setLampLine k l s) :=
  setLocalOutput_keeps hi _ _ _ (hl _ _ hs)

theorem pointWrite_keeps (tag : Byte) (pl : List Byte) (s : State) (hs : R s) : P (pointWrite tag pl s) := by
  unfold pointWrite; split
  · dsimp only; split
    · exact h.reply _ _ _ _ _ hs
    · exact h.reply _ _ _ _ _ (setLampLine_keeps h.roomTimed.toImage h.roomLamps _ _ _ hs)
    · exact h.reply _ _ _ _ _ (enterWrite_keeps h.roomTimed.toImage _ _ _ _ hs)
  · exact h.reply _ _ _ _ _ hs

theorem pointFence_keeps (tag : Byte) (pl : List Byte) (s : State) (hs : R s) : P (pointFence tag pl s) := by
  unfold pointFence; split
  · exact h.reply _ _ _ _ _ hs
  · dsimp only; split
    · exact h.reply _ _ _ _ _ hs
    · split
      · exact h.reply _ _ _ _ _ hs
      · split
        · exact h.reply _ _ _ _ _ hs
        · exact h.reply _ _ _ _ _ (h.roomTimed.out _ _ _ (putEntry_lastEcho _) hs)

omit h in
theorem insertProfile_sorted (p : Profile) (ps : List Profile)
    (hps : ps.Pairwise (fun a b => a.typeCode < b.typeCode)) :
    (insertProfile p ps).Pairwise (fun a b => a.typeCode < b.typeCode) ∧
      ∀ q ∈ insertProfile p ps, q = p ∨ q ∈ ps := by
  induction ps with
  | nil => simp [insertProfile]
  | cons q qs ih =>
    obtain ⟨hq, hqs⟩ := List.pairwise_cons.mp hps
    unfold insertProfile
    split
    · rename_i hlt
      refine ⟨List.pairwise_cons.mpr ⟨fun x hx => ?_, hps⟩, fun x hx => by simpa using hx⟩
      rcases List.mem_cons.mp hx with rfl | hx
      · exact hlt
      · exact lt_trans hlt (hq x hx)
    · split
      · rename_i he
        refine ⟨List.pairwise_cons.mpr ⟨fun x hx => he ▸ hq x hx, hqs⟩, fun x hx => ?_⟩
        rcases List.mem_cons.mp hx with rfl | hx
        · exact .inl rfl
        · exact .inr (List.mem_cons_of_mem _ hx)
      · rename_i hlt hne
        obtain ⟨h1, h2⟩ := ih hqs
        refine ⟨List.pairwise_cons.mpr ⟨fun x hx => ?_, h1⟩, fun x hx => ?_⟩
        · rcases h2 x hx with rfl | hx
          · omega
          · exact hq x hx
        · rcases List.mem_cons.mp hx with rfl | hx
          · exact .inr (List.mem_cons_self ..)
          · rcases h2 x hx with rfl | hx
            · exact .inl rfl
            · exact .inr (List.mem_cons_of_mem _ hx)

omit h in
theorem insertProfile_length (p : Profile) (ps : List Profile) :
    (insertProfile p ps).length ≤ ps.length + 1 ∧
      ((∃ q ∈ ps, q.typeCode = p.typeCode) → ps.Pairwise (fun a b => a.typeCode < b.typeCode) →
        (insertProfile p ps).length = ps.length) := by
  induction ps with
  | nil => simp [insertProfile]
  | cons q qs ih =>
    unfold insertProfile
    split
    · rename_i hlt
      refine ⟨by simp, fun ⟨x, hx, he⟩ hps => ?_⟩
      obtain ⟨hq, -⟩ := List.pairwise_cons.mp hps
      rcases List.mem_cons.mp hx with rfl | hx
      · omega
      · have := hq x hx; omega
    · split
      · exact ⟨by simp, fun _ _ => by simp⟩
      · rename_i hlt hne
        refine ⟨by simpa using ih.1, fun ⟨x, hx, he⟩ hps => ?_⟩
        obtain ⟨-, hqs⟩ := List.pairwise_cons.mp hps
        rcases List.mem_cons.mp hx with rfl | hx
        · exact absurd he.symm hne
        · simpa using ih.2 ⟨x, hx, he⟩ hqs

theorem profilePut_keeps (tag : Byte) (pl : List Byte) (s : State) (hs : R s) : P (profilePut tag pl s) := by
  unfold profilePut; split
  · exact h.reply _ _ _ _ _ hs
  · exact h.reply _ _ _ _ _ hs
  · rename_i p _
    split
    · rename_i hin
      split
      · exact h.reply _ _ _ _ _ hs
      · refine h.reply _ _ _ _ _ (h.profiles _ _ (fun ht => ⟨?_, (insertProfile_sorted p _ ht.2).1⟩) hs)
        obtain ⟨q, hq⟩ := Option.isSome_iff_exists.mp hin
        have hmem := List.mem_of_find?_eq_some hq
        have heq : q.typeCode = p.typeCode := by simpa using List.find?_some hq
        rw [(insertProfile_length p _).2 ⟨q, hmem, heq⟩ ht.2]
        exact ht.1
    · split
      · exact h.reply _ _ _ _ _ hs
      · rename_i hroom
        refine h.reply _ _ _ _ _ (h.profiles _ _ (fun ht => ⟨?_, (insertProfile_sorted p _ ht.2).1⟩) hs)
        have := (insertProfile_length p s.profiles).1
        simp only [profileLimit] at hroom
        omega

theorem profileDrop_keeps (tag : Byte) (pl : List Byte) (s : State) (hs : R s) :
    P (profileDrop tag pl s) := by
  unfold profileDrop; split
  · dsimp only; split
    · exact h.reply _ _ _ _ _ hs
    · split
      · exact h.reply _ _ _ _ _ hs
      · refine h.reply _ _ _ _ _ (h.profiles _ _ (fun ht => ⟨?_, ht.2.filter _⟩) hs)
        exact le_trans (List.length_filter_le _ _) ht.1
  · exact h.reply _ _ _ _ _ hs

/-! ### Frames and bytes of the host port -/

theorem requestHandler_keeps (code tag : Byte) (pl : List Byte) (f : State → State)
    (hf : requestHandler code tag pl = some f) (s : State) (hs : P s) : P (f s) := by
  unfold requestHandler at hf
  split at hf <;> cases hf
  · exact quickReply_keeps h.toServed _ _ _ _ hs
  · exact takeRequest_keeps h.toServed _ _ _ (hubStatus_keeps h _ _) _ hs
  · exact takeRequest_keeps h.toServed _ _ _ (hubReset_keeps h _ _) _ hs
  · exact takeRequest_keeps h.toServed _ _ _ (modeSet_keeps h _ _) _ hs
  · exact takeRequest_keeps h.toServed _ _ _ (settingsSet_keeps h _ _) _ hs
  · exact quickReply_keeps h.toServed _ _ _ _ hs
  · exact takeRequest_keeps h.toServed _ _ _ (storeSave_keeps h _ _) _ hs
  · exact takeRequest_keeps h.toServed _ _ _ (profilePut_keeps h _ _) _ hs
  · exact quickReply_keeps h.toServed _ _ _ _ hs
  · exact takeRequest_keeps h.toServed _ _ _ (profileDrop_keeps h _ _) _ hs
  · exact quickReply_keeps h.toServed _ _ _ _ hs
  · exact quickReply_keeps h.toServed _ _ _ _ hs
  · exact takeRequest_keeps h.toServed _ _ _ (stationRestart_keeps h _ _) _ hs
  · exact takeRequest_keeps h.toServed _ _ _ (paramStart_keeps h _ _ _) _ hs
  · exact takeRequest_keeps h.toServed _ _ _ (paramStart_keeps h _ _ _) _ hs
  · exact quickReply_keeps h.toServed _ _ _ _ hs
  · exact takeRequest_keeps h.toServed _ _ _ (rawWrite_keeps h _ _) _ hs
  · exact takeRequest_keeps h.toServed _ _ _ (pointsRead_keeps h _ _) _ hs
  · exact takeRequest_keeps h.toServed _ _ _ (changesClear_keeps h _ _) _ hs
  · exact takeRequest_keeps h.toServed _ _ _ (pointNotify_keeps h _ _) _ hs
  · exact takeRequest_keeps h.toServed _ _ _ (pointWrite_keeps h _ _) _ hs
  · exact takeRequest_keeps h.toServed _ _ _ (pointFence_keeps h _ _) _ hs
  · exact quickReply_keeps h.toServed _ _ _ _ hs
  · exact takeRequest_keeps h.toServed _ _ _ (claimRead_keeps h.toServed _ _) _ hs
  · exact takeRequest_keeps h.toServed _ _ _ (claimSet_keeps h.toServed _ _) _ hs
  · exact takeRequest_keeps h.toServed _ _ _ (claimRelease_keeps h.toServed _ _) _ hs
  · exact takeRequest_keeps h.toServed _ _ _ (operate_keeps h.toServed _ _) _ hs
  · exact takeRequest_keeps h.toServed _ _ _ (opStop_keeps h.toServed _ _) _ hs
  · exact takeRequest_keeps h.toServed _ _ _ (resultTake_keeps h.toServed _ _) _ hs
  · exact takeRequest_keeps h.toServed _ _ _ (tripClear_keeps h.toServed _ _) _ hs
  · exact quickReply_keeps h.toServed _ _ _ _ hs
  · exact takeRequest_keeps h.toServed _ _ _ (alertAck_keeps h.toServed _ _) _ hs

theorem takeCode_keeps (code tag : Byte) (pl : List Byte) (s : State) (hs : P s) :
    P (takeCode code tag pl s) := by
  unfold takeCode; split
  · rename_i f hf
    exact requestHandler_keeps h _ _ _ _ hf _ hs
  · unfold badCode; split
    · exact hs
    · exact h.uncounted _ _ _ _ (hearRequest_keeps h.toTimed _ hs)

theorem takeFrame_keeps (cls code tag : Byte) (pl : List Byte) (s : State) (hs : P s) :
    P (takeFrame cls code tag pl s) := by
  unfold takeFrame; split
  · exact takeCode_keeps h _ _ _ _ hs
  · unfold countWrongClass; split
    · exact hs
    · exact h.portRest _ _ rfl rfl hs

theorem framerEvent_keeps (s : State) (e : FramerEvent) (hs : P s) : P (framerEvent s e) := by
  unfold framerEvent; split
  · exact hs
  · split
    · exact takeFrame_keeps h _ _ _ _ _ hs
    · exact h.portRest _ _ rfl rfl hs

theorem framerEvents_keeps (r : List FramerEvent × List HostByte) (s : State) (hs : P s) :
    P (framerEvents r s) := by
  unfold framerEvents
  exact h.portRest _ _ rfl rfl (foldl_keeps _ (framerEvent_keeps h) _ _ hs)

theorem takeBytes_keeps (bs : List HostByte) (s : State) (hs : P s) : P (takeBytes bs s) := by
  unfold takeBytes; split
  · exact hs
  · exact framerEvents_keeps h _ _ hs

theorem takeGap_keeps (bs : List HostByte) (b : HostByte) (s : State) (hs : P s) : P (takeGap bs b s) := by
  unfold takeGap; split
  · exact hs
  · exact framerEvents_keeps h _ _ hs

/-! ### Timers and pins -/

theorem lampHalfPeriod_keeps (k : Nat) (s : State) (hs : P s) : P (lampHalfPeriod k s) := by
  unfold lampHalfPeriod; split
  · exact hs
  · exact setLampLine_keeps h.toImage h.lamps _ _ _ (h.time _ _ hs)

theorem hubResetDue_keeps (a : Bool) (b : BitVec 2) (c : Byte) (s : State) (hs : P s) :
    P (hubResetDue a b c s) := by
  unfold hubResetDue; split
  · refine h.reset _ _ _ _ ?_
    split
    · exact hs
    · exact h.time _ _ hs
  · exact hs

/-! ### The port's bytes, and the hub with no command waiting -/

omit h in
theorem whileSending_keeps {f : HostPort → HostPort} (hf : ∀ s, P s → P (updPort f s)) (s : State) (hs : P s) :
    P (whileSending f s) := by
  unfold whileSending; split
  · exact hf _ hs
  · exact hs

theorem sendByte_keeps (s : State) (hs : P s) : P (updPort sendByte s) := by
  have hb := h.begun s hs
  have hd := h.sent s hs
  rcases hf : s.port.fifo with - | ⟨m, rest⟩
  · simpa [updPort, sendByte, hf] using hs
  · by_cases hl : s.port.sent + 1 < (messageBytes m).length
    · have := h.portRest (fun p => { p with sent := s.port.sent + 1 }) _ rfl rfl hb
      simpa [updPort, sendByte, hf, hl] using this
    · simpa [updPort, sendByte, hf, hl] using hd

theorem idlePort_keeps (s : State) (hs : P s) : P (idlePort s) := by
  unfold idlePort; split
  · exact whileSending_keeps (sendByte_keeps h) _ hs
  · exact hs

/-! ### All commands -/

/-- Every command keeps a closed predicate. -/
theorem exec_keeps (i : Instr) (s t : State) (hs : P s) (he : exec i s = .next t) : P t := by
  have key : ∀ u, Host.Outcome.next (φ := Fault) (ρ := Refusal) u = .next t → P u → P t := fun u hu hp => by
    cases hu; exact hp
  cases i with
  | powerOnReset a b c => exact key _ he (h.reset _ _ _ _ hs)
  | resetPinFall => exact key _ he (h.fall _ hs)
  | resetPinRelease a b c =>
    refine key _ he ?_
    split
    · exact h.reset _ _ _ _ hs
    · exact hs
  | hubResetTakesPlace a b c =>
    exact key _ he (unlessHeld_keeps _ (hubResetDue_keeps h _ _ _) _ hs)
  | hubInfo tag pl => exact key _ he (quickReply_keeps h.toServed _ _ _ _ hs)
  | hubStatus tag pl => exact key _ he (takeRequest_keeps h.toServed _ _ _ (hubStatus_keeps h _ _) _ hs)
  | hubReset tag pl => exact key _ he (takeRequest_keeps h.toServed _ _ _ (hubReset_keeps h _ _) _ hs)
  | modeSet tag pl => exact key _ he (takeRequest_keeps h.toServed _ _ _ (modeSet_keeps h _ _) _ hs)
  | modeTeardown => exact key _ he (unlessHeld_keeps _ (settleChange_keeps h.toTorn) _ hs)
  | settingsSet tag pl => exact key _ he (takeRequest_keeps h.toServed _ _ _ (settingsSet_keeps h _ _) _ hs)
  | settingsGet tag pl => exact key _ he (quickReply_keeps h.toServed _ _ _ _ hs)
  | storeSave tag pl => exact key _ he (takeRequest_keeps h.toServed _ _ _ (storeSave_keeps h _ _) _ hs)
  | storeWriteEnd v => exact key _ he (unlessHeld_keeps _ (storeWriteEnd_keeps h _) _ hs)
  | profilePut tag pl => exact key _ he (takeRequest_keeps h.toServed _ _ _ (profilePut_keeps h _ _) _ hs)
  | profileGet tag pl => exact key _ he (quickReply_keeps h.toServed _ _ _ _ hs)
  | profileDrop tag pl => exact key _ he (takeRequest_keeps h.toServed _ _ _ (profileDrop_keeps h _ _) _ hs)
  | profileList tag pl => exact key _ he (quickReply_keeps h.toServed _ _ _ _ hs)
  | stationList tag pl => exact key _ he (quickReply_keeps h.toServed _ _ _ _ hs)
  | stationRestart tag pl => exact key _ he (takeRequest_keeps h.toServed _ _ _ (stationRestart_keeps h _ _) _ hs)
  | paramRead tag pl => exact key _ he (takeRequest_keeps h.toServed _ _ _ (paramStart_keeps h _ _ _) _ hs)
  | paramWrite tag pl => exact key _ he (takeRequest_keeps h.toServed _ _ _ (paramStart_keeps h _ _ _) _ hs)
  | rawSamples tag pl => exact key _ he (quickReply_keeps h.toServed _ _ _ _ hs)
  | rawWrite tag pl => exact key _ he (takeRequest_keeps h.toServed _ _ _ (rawWrite_keeps h _ _) _ hs)
  | pointsRead tag pl => exact key _ he (takeRequest_keeps h.toServed _ _ _ (pointsRead_keeps h _ _) _ hs)
  | changesClear tag pl => exact key _ he (takeRequest_keeps h.toServed _ _ _ (changesClear_keeps h _ _) _ hs)
  | pointNotify tag pl => exact key _ he (takeRequest_keeps h.toServed _ _ _ (pointNotify_keeps h _ _) _ hs)
  | pointWrite tag pl => exact key _ he (takeRequest_keeps h.toServed _ _ _ (pointWrite_keeps h _ _) _ hs)
  | pointFence tag pl => exact key _ he (takeRequest_keeps h.toServed _ _ _ (pointFence_keeps h _ _) _ hs)
  | groupStatus tag pl => exact key _ he (quickReply_keeps h.toServed _ _ _ _ hs)
  | claimRead req =>
    cases req with
    | remote tag pl => exact key _ he (takeRequest_keeps h.toServed _ _ _ (claimRead_keeps h.toServed _ _) _ hs)
    | cab g => exact key _ he (unlessHeld_keeps _ (cabClaimRead_keeps h.toInner _) _ hs)
  | claimSet req =>
    cases req with
    | remote tag pl => exact key _ he (takeRequest_keeps h.toServed _ _ _ (claimSet_keeps h.toServed _ _) _ hs)
    | cab g => exact key _ he (unlessHeld_keeps _ (cabClaimSet_keeps h.toInner _) _ hs)
  | claimRelease req =>
    cases req with
    | remote tag pl => exact key _ he (takeRequest_keeps h.toServed _ _ _ (claimRelease_keeps h.toServed _ _) _ hs)
    | cab g => exact key _ he (unlessHeld_keeps _ (cabClaimRelease_keeps h.toInner _) _ hs)
  | operate req =>
    cases req with
    | remote tag pl => exact key _ he (takeRequest_keeps h.toServed _ _ _ (operate_keeps h.toServed _ _) _ hs)
    | cab g kind => exact key _ he (unlessHeld_keeps _ (cabOperate_keeps h.toLocal _ _) _ hs)
  | opStop req =>
    cases req with
    | remote tag pl => exact key _ he (takeRequest_keeps h.toServed _ _ _ (opStop_keeps h.toServed _ _) _ hs)
    | cab g => exact key _ he (unlessHeld_keeps _ (cabStop_keeps h.toLocal _) _ hs)
  | resultTake tag pl => exact key _ he (takeRequest_keeps h.toServed _ _ _ (resultTake_keeps h.toServed _ _) _ hs)
  | tripClear req =>
    cases req with
    | remote tag pl => exact key _ he (takeRequest_keeps h.toServed _ _ _ (tripClear_keeps h.toServed _ _) _ hs)
    | cab g => exact key _ he (unlessHeld_keeps _ (cabTripClear_keeps h.toLocal _) _ hs)
  | alertStatus tag pl => exact key _ he (quickReply_keeps h.toServed _ _ _ _ hs)
  | alertAck tag pl => exact key _ he (takeRequest_keeps h.toServed _ _ _ (alertAck_keeps h.toServed _ _) _ hs)
  | unknownRequest code tag pl => exact key _ he (takeCode_keeps h _ _ _ _ hs)
  | badHostFrame bs => exact key _ he (takeBytes_keeps h _ _ hs)
  | hostByteGap bs b => exact key _ he (takeGap_keeps h _ _ _ hs)
  | wrongClassFrame cls code tag pl => exact key _ he (takeFrame_keeps h _ _ _ _ _ hs)
  | noticeSendBegin => exact key _ he (whileSending_keeps h.begun _ hs)
  | messageSent => exact key _ he (whileSending_keeps h.sent _ hs)
  | hostSilenceEvent => exact key _ he (unlessHeld_keeps _ (hostSilence_keeps h.toTimed) _ hs)
  | cycleStart l => exact key _ he (unlessHeld_keeps _ (startCycle_keeps h.toLink _) _ hs)
  | stationSlotStart k => exact key _ he (unlessHeld_keeps _ (stationSlot_keeps h.toLink _) _ hs)
  | probeSlotStart l => exact key _ he (unlessHeld_keeps _ (probeSlot_keeps h.toLink _) _ hs)
  | paramSlotStart l => exact key _ he (unlessHeld_keeps _ (paramSlot_keeps h.toLink _) _ hs)
  | scanAnswerGood l rx =>
    exact key _ he (unlessHeld_keeps _ (fun _ hs => settleChange_keeps h.toTorn _ (scanVerdict_keeps h.toLink _ _ _ hs)) _ hs)
  | scanMiss l rx =>
    exact key _ he (unlessHeld_keeps _ (fun _ hs => settleChange_keeps h.toTorn _ (scanVerdict_keeps h.toLink _ _ _ hs)) _ hs)
  | rollAnswerGood l rx => exact key _ he (unlessHeld_keeps _ (probeVerdict_keeps h.toLink _ _) _ hs)
  | probeMiss l rx => exact key _ he (unlessHeld_keeps _ (probeVerdict_keeps h.toLink _ _) _ hs)
  | paramAnswerGood l rx =>
    exact key _ he (unlessHeld_keeps _ (fun _ hs => settleChange_keeps h.toTorn _ (paramVerdict_keeps h.toLink _ _ _ hs)) _ hs)
  | paramMiss l rx =>
    exact key _ he (unlessHeld_keeps _ (fun _ hs => settleChange_keeps h.toTorn _ (paramVerdict_keeps h.toLink _ _ _ hs)) _ hs)
  | holdoffExpiry k => exact key _ he (unlessHeld_keeps _ (holdoffEnds_keeps h.toLink _) _ hs)
  | localInputFlip k b =>
    exact key _ he (unlessHeld_keeps _ (fun _ hs => settleChange_keeps h.toTorn _ (setInput_keeps h.toLink _ _ _ _ hs)) _ hs)
  | lampHalfPeriodExpiry k => exact key _ he (unlessHeld_keeps _ (lampHalfPeriod_keeps h _) _ hs)
  | cabLampHalfPeriodExpiry k => exact key _ he (unlessHeld_keeps _ (cabLampHalfPeriod_keeps h.toTimed _) _ hs)
  | claimMarkExpiry g src => exact key _ he (unlessHeld_keeps _ (markExpiry_keeps h.toTimed _ _) _ hs)
  | operationDeadline g => exact key _ he (unlessHeld_keeps _ (deadlineReached_keeps h.toTimed _) _ hs)
  | soundTimerExpiry => exact key _ he (unlessHeld_keeps _ (soundExpiry_keeps h.toTimed) _ hs)
  | restTimerExpiry => exact key _ he (unlessHeld_keeps _ (restExpiry_keeps h.toTimed) _ hs)
  | localInputSample lin =>
    exact key _ he (unlessHeld_keeps _ (fun _ hs => settleChange_keeps h.toTorn _ (sampleInputs_keeps h.toLink _ _ hs)) _ hs)

/-- Every step keeps a closed predicate that does not look at the queue of waiting commands. -/
theorem step_keeps (hq : ∀ q s, P s → P { s with pending := q }) (s t : State) (hs : P s)
    (he : step s = .next t) : P t := by
  unfold step at he
  split at he
  · cases he; exact idlePort_keeps h _ hs
  · exact exec_keeps h _ _ _ (hq _ _ hs) he

end Commands

end Sys2Proof.Laws
end

