-- ==== Sys2Proof/Laws/Frames.lean ====
section
/-! SUPPORT. The closures that give frames. A lemma `image_…` says that the operations on points and pending lists
keep a part of the state, `panel_…` that those on the cab service do too, `local_…` those on groups and operations,
`inner_…` those on owners, `served_…` the requests and timers of groups, and `link_…` those on stations, cycles and
verdicts. -/

namespace Sys2Proof.Laws

open Sys2Proof Sys2Proof.Machine

theorem image_cab (x) : Image (fun t => t.cab = x) :=
  ⟨fun _ _ _ h => h, fun _ _ _ _ h => h, fun _ _ _ h => by simpa using h⟩

theorem panel_groups (x) : Panel (fun t => t.groups = x) :=
  ⟨⟨fun _ _ _ h => h, fun _ _ _ _ h => h, fun _ _ _ h => by simpa using h⟩, fun _ _ h => h⟩

theorem panel_permitPins (x) : Panel (fun t => t.permitPins = x) :=
  ⟨⟨fun _ _ _ h => h, fun _ _ _ _ h => h, fun _ _ _ h => by simpa using h⟩, fun _ _ h => h⟩

theorem panel_owners (x) : Panel (fun t => t.owners = x) :=
  ⟨⟨fun _ _ _ h => h, fun _ _ _ _ h => h, fun _ _ _ h => by simpa using h⟩, fun _ _ h => h⟩

theorem panel_ops (x) : Panel (fun t => t.ops = x) :=
  ⟨⟨fun _ _ _ h => h, fun _ _ _ _ h => h, fun _ _ _ h => by simpa using h⟩, fun _ _ h => h⟩

theorem panel_results (x) : Panel (fun t => t.results = x) :=
  ⟨⟨fun _ _ _ h => h, fun _ _ _ _ h => h, fun _ _ _ h => by simpa using h⟩, fun _ _ h => h⟩

theorem local_owners (x) : Local (fun t => t.owners = x) :=
  ⟨panel_owners x, fun _ _ _ _ h => h, fun _ _ h => h, fun _ _ _ h => h, fun _ _ _ _ _ h => h⟩

theorem inner_lines (x) : Inner (fun t => t.lines = x) :=
  ⟨⟨⟨⟨fun _ _ _ h => h, fun _ _ _ _ h => h, fun _ _ _ h => by simpa using h⟩, fun _ _ h => h⟩,
    fun _ _ _ _ h => h, fun _ _ h => h, fun _ _ _ h => h, fun _ _ _ _ _ h => h⟩,
    fun _ _ _ h => h, fun _ _ _ _ h => h, fun _ _ _ h => h⟩

theorem inner_stations (x) : Inner (fun t => t.stations = x) :=
  ⟨⟨⟨⟨fun _ _ _ h => h, fun _ _ _ _ h => h, fun _ _ _ h => by simpa using h⟩, fun _ _ h => h⟩,
    fun _ _ _ _ h => h, fun _ _ h => h, fun _ _ _ h => h, fun _ _ _ _ _ h => h⟩,
    fun _ _ _ h => h, fun _ _ _ _ h => h, fun _ _ _ h => h⟩

theorem inner_staleLimits (x) : Inner (fun t => t.staleLimits = x) :=
  ⟨⟨⟨⟨fun _ _ _ h => h, fun _ _ _ _ h => h, fun _ _ _ h => by simpa using h⟩, fun _ _ h => h⟩,
    fun _ _ _ _ h => h, fun _ _ h => h, fun _ _ _ h => h, fun _ _ _ _ _ h => h⟩,
    fun _ _ _ h => h, fun _ _ _ _ h => h, fun _ _ _ h => h⟩

theorem inner_raw (x) : Inner (fun t => t.raw = x) :=
  ⟨⟨⟨⟨fun _ _ _ h => h, fun _ _ _ _ h => h, fun _ _ _ h => by simpa using h⟩, fun _ _ h => h⟩,
    fun _ _ _ _ h => h, fun _ _ h => h, fun _ _ _ h => h, fun _ _ _ _ _ h => h⟩,
    fun _ _ _ h => h, fun _ _ _ _ h => h, fun _ _ _ h => h⟩

theorem inner_profiles (x) : Inner (fun t => t.profiles = x) :=
  ⟨⟨⟨⟨fun _ _ _ h => h, fun _ _ _ _ h => h, fun _ _ _ h => by simpa using h⟩, fun _ _ h => h⟩,
    fun _ _ _ _ h => h, fun _ _ h => h, fun _ _ _ h => h, fun _ _ _ _ _ h => h⟩,
    fun _ _ _ h => h, fun _ _ _ _ h => h, fun _ _ _ h => h⟩

theorem inner_store (x) : Inner (fun t => t.store = x) :=
  ⟨⟨⟨⟨fun _ _ _ h => h, fun _ _ _ _ h => h, fun _ _ _ h => by simpa using h⟩, fun _ _ h => h⟩,
    fun _ _ _ _ h => h, fun _ _ h => h, fun _ _ _ h => h, fun _ _ _ _ _ h => h⟩,
    fun _ _ _ h => h, fun _ _ _ _ h => h, fun _ _ _ h => h⟩

theorem inner_hub (x) : Inner (fun t => t.hub = x) :=
  ⟨⟨⟨⟨fun _ _ _ h => h, fun _ _ _ _ h => h, fun _ _ _ h => by simpa using h⟩, fun _ _ h => h⟩,
    fun _ _ _ _ h => h, fun _ _ h => h, fun _ _ _ h => h, fun _ _ _ _ _ h => h⟩,
    fun _ _ _ h => h, fun _ _ _ _ h => h, fun _ _ _ h => h⟩

theorem inner_lampLines (x) : Inner (fun t => t.lampLines = x) :=
  ⟨⟨⟨⟨fun _ _ _ h => h, fun _ _ _ _ h => h, fun _ _ _ h => by simpa using h⟩, fun _ _ h => h⟩,
    fun _ _ _ _ h => h, fun _ _ h => h, fun _ _ _ h => h, fun _ _ _ _ _ h => h⟩,
    fun _ _ _ h => h, fun _ _ _ _ h => h, fun _ _ _ h => h⟩

theorem inner_held (x) : Inner (fun t => t.held = x) :=
  ⟨⟨⟨⟨fun _ _ _ h => h, fun _ _ _ _ h => h, fun _ _ _ h => by simpa using h⟩, fun _ _ h => h⟩,
    fun _ _ _ _ h => h, fun _ _ h => h, fun _ _ _ h => h, fun _ _ _ _ _ h => h⟩,
    fun _ _ _ h => h, fun _ _ _ _ h => h, fun _ _ _ h => h⟩

theorem inner_now (x) : Inner (fun t => t.now = x) :=
  ⟨⟨⟨⟨fun _ _ _ h => h, fun _ _ _ _ h => h, fun _ _ _ h => by simpa using h⟩, fun _ _ h => h⟩,
    fun _ _ _ _ h => h, fun _ _ h => h, fun _ _ _ h => h, fun _ _ _ _ _ h => h⟩,
    fun _ _ _ h => h, fun _ _ _ _ h => h, fun _ _ _ h => h⟩

theorem inner_choices (x) : Inner (fun t => t.choices = x) :=
  ⟨⟨⟨⟨fun _ _ _ h => h, fun _ _ _ _ h => h, fun _ _ _ h => by simpa using h⟩, fun _ _ h => h⟩,
    fun _ _ _ _ h => h, fun _ _ h => h, fun _ _ _ h => h, fun _ _ _ _ _ h => h⟩,
    fun _ _ _ h => h, fun _ _ _ _ h => h, fun _ _ _ h => h⟩

theorem inner_pending (x) : Inner (fun t => t.pending = x) :=
  ⟨⟨⟨⟨fun _ _ _ h => h, fun _ _ _ _ h => h, fun _ _ _ h => by simpa using h⟩, fun _ _ h => h⟩,
    fun _ _ _ _ h => h, fun _ _ h => h, fun _ _ _ h => h, fun _ _ _ _ _ h => h⟩,
    fun _ _ _ h => h, fun _ _ _ _ h => h, fun _ _ _ h => h⟩

/-- The echo that a station's writer has seen last (R90). -/
theorem inner_lastEcho (k : Stn) (x) : Inner (fun t => (t.outputs.get k).lastEcho = x) :=
  ⟨⟨⟨⟨fun _ _ _ h => h, fun i f s e h => by
      simp only [updOut_outputs, ByStn.get_set]; split
      · rename_i hk; subst hk; rw [e]; exact h
      · exact h, fun _ _ _ h => by simpa using h⟩, fun _ _ h => h⟩,
    fun _ _ _ _ h => h, fun _ _ h => h, fun _ _ _ h => h, fun _ _ _ _ _ h => h⟩,
    fun _ _ _ h => h, fun _ _ _ _ h => h, fun _ _ _ h => h⟩

/-- The parts of the port that no notice and no reply touches. -/
def portCore (p : HostPort) : HostPort :=
  { p with fifo := [], overflowed := false, counters := { p.counters with droppedNotices := 0 } }

theorem notice_portCore (kind : NoticeKind) (payload : List Byte) (s : State) :
    portCore (notice kind payload s).port = portCore s.port := by
  rcases notice_cases kind payload s with ⟨-, e⟩ | ⟨-, -, e⟩ | ⟨-, -, e⟩ <;> rw [e] <;> rfl

theorem inner_portCore (x : HostPort) : Inner (fun t => portCore t.port = x) :=
  ⟨⟨⟨⟨fun _ _ _ h => h, fun _ _ _ _ h => h, fun _ _ _ h => (notice_portCore _ _ _).trans h⟩, fun _ _ h => h⟩,
    fun _ _ _ _ h => h, fun _ _ h => h, fun _ _ _ h => h, fun _ _ _ _ _ h => h⟩,
    fun _ _ _ h => h, fun _ _ _ _ h => h, fun _ _ _ h => h⟩

theorem inner_length (x : Nat) : Inner (fun t => t.points.length = x) :=
  ⟨⟨⟨⟨fun _ _ e h => e.length.trans h, fun _ _ _ _ h => h, fun _ _ _ h => by simpa using h⟩, fun _ _ h => h⟩,
    fun _ _ _ _ h => h, fun _ _ h => h, fun _ _ _ h => h, fun _ _ _ _ _ h => h⟩,
    fun _ _ _ h => h, fun _ _ _ _ h => h, fun _ _ _ h => h⟩

/-- A predicate on what neither a station record nor a reply touches is closed under the end of a transfer. -/
theorem settle_of {P : State → Prop} (ht : ∀ k f s, P s → P (updStation k f s))
    (hr : ∀ code tag st body s, P s → P (replyBytes code tag st body s)) (k : Stn) (st : Status)
    (body : List Byte) (s : State) (hs : P s) : P (endTransfer k st body s) := by
  unfold endTransfer; split
  · exact hr _ _ _ _ _ (ht _ _ _ hs)
  · exact hs

/-- A predicate on what the port does not hold asks for no room for a reply. -/
theorem served_of {P : State → Prop} (ht : Timed P)
    (hr : ∀ code tag st body s, P s → P (replyBytes code tag st body s))
    (ha : ∀ code tag s, P s → P (enterTable code tag s))
    (hu : ∀ code tag st s, P s → P (uncountedReply code tag st s)) : Served P P :=
  ⟨ht, ⟨hr⟩, ht, fun _ _ _ _ _ h => ha _ _ _ h, hu⟩

theorem link_profiles (x) : Link (fun t => t.profiles = x) :=
  ⟨inner_profiles x, fun _ _ _ h => h, fun _ _ _ h => h, fun _ _ _ h => h, fun _ _ _ _ h => h,
    settle_of (fun _ _ _ h => h) (fun _ _ _ _ _ h => h), fun _ _ h => h, fun _ _ h => h, fun _ _ h => h, fun _ _ h => h⟩

theorem link_store (x) : Link (fun t => t.store = x) :=
  ⟨inner_store x, fun _ _ _ h => h, fun _ _ _ h => h, fun _ _ _ h => h, fun _ _ _ _ h => h,
    settle_of (fun _ _ _ h => h) (fun _ _ _ _ _ h => h), fun _ _ h => h, fun _ _ h => h, fun _ _ h => h, fun _ _ h => h⟩

theorem link_lampLines (x) : Link (fun t => t.lampLines = x) :=
  ⟨inner_lampLines x, fun _ _ _ h => h, fun _ _ _ h => h, fun _ _ _ h => h, fun _ _ _ _ h => h,
    settle_of (fun _ _ _ h => h) (fun _ _ _ _ _ h => h), fun _ _ h => h, fun _ _ h => h, fun _ _ h => h, fun _ _ h => h⟩

theorem link_held (x) : Link (fun t => t.held = x) :=
  ⟨inner_held x, fun _ _ _ h => h, fun _ _ _ h => h, fun _ _ _ h => h, fun _ _ _ _ h => h,
    settle_of (fun _ _ _ h => h) (fun _ _ _ _ _ h => h), fun _ _ h => h, fun _ _ h => h, fun _ _ h => h, fun _ _ h => h⟩

theorem link_pending (x) : Link (fun t => t.pending = x) :=
  ⟨inner_pending x, fun _ _ _ h => h, fun _ _ _ h => h, fun _ _ _ h => h, fun _ _ _ _ h => h,
    settle_of (fun _ _ _ h => h) (fun _ _ _ _ _ h => h), fun _ _ h => h, fun _ _ h => h, fun _ _ h => h, fun _ _ h => h⟩

theorem link_portCore (x) : Link (fun t => portCore t.port = x) :=
  ⟨inner_portCore x, fun _ _ _ h => h, fun _ _ _ h => h, fun _ _ _ h => h, fun _ _ _ _ h => h,
    settle_of (fun _ _ _ h => h) (fun _ _ _ _ _ h => h), fun _ _ h => h, fun _ _ h => h, fun _ _ h => h, fun _ _ h => h⟩

theorem link_length (x) : Link (fun t => t.points.length = x) :=
  ⟨inner_length x, fun _ _ _ h => h, fun _ _ _ h => h, fun _ _ e h => e.trans h, fun _ _ _ _ h => h,
    settle_of (fun _ _ _ h => h) (fun _ _ _ _ _ h => h), fun _ _ h => h, fun _ _ h => h, fun _ _ h => h, fun _ _ h => h⟩

theorem served_lines (x) : Served (fun t => t.lines = x) (fun t => t.lines = x) :=
  served_of ⟨inner_lines x, fun _ _ h => h, fun _ _ _ _ h => h⟩ (fun _ _ _ _ _ h => h) (fun _ _ _ h => h)
    (fun _ _ _ _ h => by simpa using h)

theorem served_stations (x) : Served (fun t => t.stations = x) (fun t => t.stations = x) :=
  served_of ⟨inner_stations x, fun _ _ h => h, fun _ _ _ _ h => h⟩ (fun _ _ _ _ _ h => h) (fun _ _ _ h => h)
    (fun _ _ _ _ h => by simpa using h)

theorem served_staleLimits (x) : Served (fun t => t.staleLimits = x) (fun t => t.staleLimits = x) :=
  served_of ⟨inner_staleLimits x, fun _ _ h => h, fun _ _ _ _ h => h⟩ (fun _ _ _ _ _ h => h) (fun _ _ _ h => h)
    (fun _ _ _ _ h => by simpa using h)

theorem served_raw (x) : Served (fun t => t.raw = x) (fun t => t.raw = x) :=
  served_of ⟨inner_raw x, fun _ _ h => h, fun _ _ _ _ h => h⟩ (fun _ _ _ _ _ h => h) (fun _ _ _ h => h)
    (fun _ _ _ _ h => by simpa using h)

theorem served_profiles (x) : Served (fun t => t.profiles = x) (fun t => t.profiles = x) :=
  served_of ⟨inner_profiles x, fun _ _ h => h, fun _ _ _ _ h => h⟩ (fun _ _ _ _ _ h => h) (fun _ _ _ h => h)
    (fun _ _ _ _ h => by simpa using h)

theorem served_store (x) : Served (fun t => t.store = x) (fun t => t.store = x) :=
  served_of ⟨inner_store x, fun _ _ h => h, fun _ _ _ _ h => h⟩ (fun _ _ _ _ _ h => h) (fun _ _ _ h => h)
    (fun _ _ _ _ h => by simpa using h)

theorem served_hub (x) : Served (fun t => t.hub = x) (fun t => t.hub = x) :=
  served_of ⟨inner_hub x, fun _ _ h => h, fun _ _ _ _ h => h⟩ (fun _ _ _ _ _ h => h) (fun _ _ _ h => h)
    (fun _ _ _ _ h => by simpa using h)

theorem served_lampLines (x) : Served (fun t => t.lampLines = x) (fun t => t.lampLines = x) :=
  served_of ⟨inner_lampLines x, fun _ _ h => h, fun _ _ _ _ h => h⟩ (fun _ _ _ _ _ h => h) (fun _ _ _ h => h)
    (fun _ _ _ _ h => by simpa using h)

theorem served_held (x) : Served (fun t => t.held = x) (fun t => t.held = x) :=
  served_of ⟨inner_held x, fun _ _ h => h, fun _ _ _ _ h => h⟩ (fun _ _ _ _ _ h => h) (fun _ _ _ h => h)
    (fun _ _ _ _ h => by simpa using h)

theorem served_pending (x) : Served (fun t => t.pending = x) (fun t => t.pending = x) :=
  served_of ⟨inner_pending x, fun _ _ h => h, fun _ _ _ _ h => h⟩ (fun _ _ _ _ _ h => h) (fun _ _ _ h => h)
    (fun _ _ _ _ h => by simpa using h)

theorem served_length (x) : Served (fun t => t.points.length = x) (fun t => t.points.length = x) :=
  served_of ⟨inner_length x, fun _ _ h => h, fun _ _ _ _ h => h⟩ (fun _ _ _ _ _ h => h) (fun _ _ _ h => h)
    (fun _ _ _ _ h => by simpa using h)

end Sys2Proof.Laws
end

