-- ==== Sys2Proof/Laws/LinePins.lean ====
section
/-! SUPPORT. The pins of the field lines: a byte on the wire has ten bits and is received as itself, and a line without
a slot on the wire rests. -/

namespace Sys2Proof.Machine

@[simp] theorem wireBits_length (b : Byte) : (wireBits b).length = 10 := rfl

theorem receivedByte_wireBits (start : Nat) (b : Byte) : receivedByte start (wireBits b) = some ⟨start, b, true⟩ := by
  have h : ∀ b : BitVec 8, (receivedByte 0 (wireBits b)).map (·.value) = some b := by decide +kernel
  simpa [receivedByte, wireBits] using h b

theorem pins_rest (s : State) (l : Line) (t : Nat) (h : slotOnWire s l = none) :
    driverPin s l t = false ∧ transmitPin s l t = true ∧ receiverOpen s l t = false := by
  simp [driverPin, transmitPin, receiverOpen, h]

end Sys2Proof.Machine
end

