-- ==== Sys2Proof/Laws/Operations.lean ====
section
/-! SUPPORT. What an evaluation, the end of an operation and an owner change do to groups, operations, results and
owners, said once. -/

namespace Sys2Proof.Laws

open Sys2Proof Sys2Proof.Machine

theorem handCopy_frame (g : Group) (f : GroupCopy → GroupCopy) (s : State) :
    (handCopy g f s).ops = s.ops ∧ (handCopy g f s).results = s.results ∧
      (handCopy g f s).owners = s.owners ∧ (handCopy g f s).groups = s.groups :=
  ⟨handCopy_keeps (panel_ops _) g f s rfl, handCopy_keeps (panel_results _) g f s rfl,
    handCopy_keeps (panel_owners _) g f s rfl, handCopy_keeps (panel_groups _) g f s rfl⟩

theorem raiseAlert_frame (r : AlertReason) (s : State) :
    (raiseAlert r s).ops = s.ops ∧ (raiseAlert r s).results = s.results ∧
      (raiseAlert r s).owners = s.owners ∧ (raiseAlert r s).groups = s.groups :=
  ⟨raiseAlert_keeps (panel_ops _) r s rfl, raiseAlert_keeps (panel_results _) r s rfl,
    raiseAlert_keeps (panel_owners _) r s rfl, raiseAlert_keeps (panel_groups _) r s rfl⟩

theorem drivePermit_frame (g : Group) (s : State) :
    (drivePermit g s).ops = s.ops ∧ (drivePermit g s).results = s.results ∧
      (drivePermit g s).groups = s.groups := by
  unfold drivePermit; dsimp only; split
  · exact ⟨rfl, rfl, rfl⟩
  · exact ⟨setLocalOutput_keeps (panel_ops _).toImage _ _ _ rfl,
      setLocalOutput_keeps (panel_results _).toImage _ _ _ rfl,
      setLocalOutput_keeps (panel_groups _).toImage _ _ _ rfl⟩

theorem publishGroup_frame (before : GroupRec) (g : Group) (s : State) :
    (publishGroup before g s).ops = s.ops ∧ (publishGroup before g s).results = s.results ∧
      (publishGroup before g s).groups = s.groups := by
  unfold publishGroup handGroup groupNotice; dsimp only
  split <;> simp [handCopy_frame, drivePermit_frame]

/-- An evaluation of a bound group replaces its record by `evalRecord`, and touches no operation and no result. -/
theorem evaluateFrom_groups (before : GroupRec) (g : Group) (s : State) :
    (evaluateFrom before g s).groups =
      if (s.groups.get g).bound then s.groups.set g (evalRecord s g) else s.groups := by
  unfold evaluateFrom; dsimp only
  split
  · split <;> simp [raiseAlert_frame, publishGroup_frame]
  · rfl

theorem evaluateFrom_frame (before : GroupRec) (g : Group) (s : State) :
    (evaluateFrom before g s).ops = s.ops ∧ (evaluateFrom before g s).results = s.results := by
  unfold evaluateFrom; dsimp only
  split
  · split <;> simp [raiseAlert_frame, publishGroup_frame]
  · exact ⟨rfl, rfl⟩

/-- A result given to a slot leaves what `slotAfter` says in that slot. -/
theorem storeResult_results (g : Group) (src : Source) (r : OpResult) (s : State) :
    (storeResult g src r s).results = s.results.set g
      ((s.results.get g).set src (some (slotAfter ((s.results.get g).get src) r))) := by
  unfold storeResult; cases src <;> simp [handFailure, handCopy_frame]

theorem storeResult_frame (g : Group) (src : Source) (r : OpResult) (s : State) :
    (storeResult g src r s).ops = s.ops ∧ (storeResult g src r s).owners = s.owners ∧
      (storeResult g src r s).groups = s.groups := by
  unfold storeResult; cases src <;> simp [handFailure, handCopy_frame]

theorem releaseDrive_frame (r : OpRec) (s : State) :
    (releaseDrive r s).ops = s.ops ∧ (releaseDrive r s).results = s.results ∧
      (releaseDrive r s).groups = s.groups := by
  have key : ∀ P : State → Prop, Panel P → P s → P (releaseDrive r s) := by
    intro P hP hs; unfold releaseDrive; split
    · split
      · exact releaseWrite_keeps hP.toImage _ _ _ hs
      · exact hs
    · exact hs
  exact ⟨key _ (panel_ops _) rfl, key _ (panel_results _) rfl, key _ (panel_groups _) rfl⟩

/-- The end of an operation: the record goes, and no owner changes. -/
theorem endOperation_ops (g : Group) (e : Ending) (s : State) :
    (endOperation g e s).ops = s.ops.set g none := by
  unfold endOperation; split
  · rename_i h; cases g <;> simp only [ByGroup.set, ByGroup.get] at h ⊢ <;> rw [← h]
  · dsimp only; unfold evaluateRecord
    split <;> simp [evaluateFrom_frame, raiseAlert_frame, storeResult_frame, releaseDrive_frame, operationNotice]

theorem endOperation_owners (g : Group) (e : Ending) (s : State) : (endOperation g e s).owners = s.owners :=
  endOperation_keeps (local_owners _) g e s rfl

/-- The end of an operation: its result is given to the slot of its source. -/
theorem endOperation_results (g : Group) (e : Ending) (s : State) (r : OpRec) (h : s.ops.get g = some r) :
    (endOperation g e s).results = s.results.set g ((s.results.get g).set r.source
      (some (slotAfter ((s.results.get g).get r.source) (endResult r e)))) := by
  unfold endOperation; rw [h]; dsimp only; unfold evaluateRecord
  split <;> simp [evaluateFrom_frame, raiseAlert_frame, storeResult_results, releaseDrive_frame, operationNotice]

/-- An owner change: the new owner, the next generation, no mark, and no operation in flight. -/
theorem ownerChange_owners (g : Group) (new : Owner) (c : ClaimCause) (a : AbortReason) (s : State) :
    (ownerChange g new c a s).owners =
      s.owners.set g ⟨new, (s.owners.get g).generation + 1, ⟨none, none⟩⟩ := by
  unfold ownerChange; simp [endOperation_owners, handCopy_frame, claimNotice]

theorem ownerChange_ops (g : Group) (new : Owner) (c : ClaimCause) (a : AbortReason) (s : State) :
    (ownerChange g new c a s).ops = s.ops.set g none := by
  unfold ownerChange; simp [endOperation_ops, handCopy_frame, claimNotice]

theorem offerCabWrites_cab (s : State) : (offerCabWrites s).cab = s.cab := by
  refine foldl_keeps (P := fun t => t.cab = s.cab) offerCabWrite (fun t k ht => ?_) ownedOutputs s rfl
  unfold offerCabWrite; split
  · exact enterWrite_keeps (image_cab s.cab) _ _ _ _ ht
  · exact ht

theorem setCabLamp_alert (k : Nat) (l : LampRec) (s : State) :
    (setCabLamp k l s).cab.alert = s.cab.alert := by
  unfold setCabLamp; dsimp only; split
  · rfl
  · rw [offerCabWrites_cab]; rfl

theorem mirrorOne_alert (s : State) (k : Nat) : (mirrorOne s k).cab.alert = s.cab.alert := by
  unfold mirrorOne; dsimp only; split
  · rfl
  · exact setCabLamp_alert _ _ _

theorem mirrorFold_alert (ks : List Nat) : ∀ s, (ks.foldl mirrorOne s).cab.alert = s.cab.alert := by
  induction ks with
  | nil => exact fun _ => rfl
  | cons k ks ih => exact fun s => (ih _).trans (mirrorOne_alert s k)

/-- The mirror offers lamp modes; the alert stays as it is. -/
theorem mirror_alert (s : State) : (mirror s).cab.alert = s.cab.alert := by
  unfold mirror; exact mirrorFold_alert _ _

end Sys2Proof.Laws
end

