-- ==== Sys2Proof/Laws/Port.lean ====
section
/-! SUPPORT. How the replies that are owed and the counted replies that wait share the outstanding-request table:
`Owing n` is the port's limits with room for `n` more replies, kept by everything that makes none. -/

namespace Sys2Proof.Laws

open Sys2Proof Sys2Proof.Machine Sys2Proof.Safety

@[simp] theorem countSort_append (x : MessageSort) (a b : List Message) :
    countSort x (a ++ b) = countSort x a + countSort x b := by simp [countSort]

theorem countSort_cons (x : MessageSort) (m : Message) (l : List Message) :
    countSort x (m :: l) = (if m.sort = x then 1 else 0) + countSort x l := by
  unfold countSort; by_cases h : m.sort = x <;> simp [h]; omega

/-- `PortWithinLimits` in a state that can make `n` replies more than it owes. -/
def Owing (n : Nat) (s : State) : Prop :=
  s.port.table.length ≤ 8 ∧ countSort .uncountedReply s.port.fifo ≤ 8 ∧ countSort .notice s.port.fifo ≤ 32 ∧
    (s.port.table.map (·.tag)).Nodup ∧
    countSort .countedReply s.port.fifo + owedReplies s + n ≤ s.port.table.length

theorem owing_iff (s : State) : PortWithinLimits s ↔ Owing 0 s := by
  unfold PortWithinLimits Owing; constructor
  · rintro ⟨a, b, c, d, e, f⟩; exact ⟨a, c, d, e, by omega⟩
  · rintro ⟨a, c, d, e, f⟩; exact ⟨a, by omega, c, d, e, by omega⟩

theorem owing_of {n : Nat} {s t : State} (ht : t.port.table = s.port.table) (hf : t.port.fifo = s.port.fifo)
    (ho : owedReplies t = owedReplies s) (h : Owing n s) : Owing n t := by
  unfold Owing at *; rw [ht, hf, ho]; exact h

theorem owed_station (k : Stn) (f : StationRec → StationRec) (s : State)
    (he : (f (s.stations.get k)).transfer.isSome = (s.stations.get k).transfer.isSome) :
    owedReplies (updStation k f s) = owedReplies s := by
  have : ∀ k', ((updStation k f s).stations.get k').transfer.isSome = (s.stations.get k').transfer.isSome := by
    intro k'; simp only [updStation_stations, ByStn.get_set]; split
    · rename_i h; subst h; exact he
    · rfl
  simp only [owedReplies, this]; rfl

/-- A transfer that ends leaves one reply less to make. -/
theorem owed_settled (k : Stn) (f : StationRec → StationRec) (s : State)
    (h0 : (s.stations.get k).transfer.isSome = true) (h1 : (f (s.stations.get k)).transfer = none) :
    owedReplies s = owedReplies (updStation k f s) + 1 := by
  have h2 : ∀ k', ((updStation k f s).stations.get k').transfer.isSome
      = if k' = k then false else (s.stations.get k').transfer.isSome := by
    intro k'; simp only [updStation_stations, ByStn.get_set]; split
    · rename_i h; subst h; simp [h1]
    · rfl
  simp only [owedReplies, h2, lineStations, updStation_hub, updStation_store]
  cases k <;> simp [List.filter_cons, h0] <;> (repeat' split) <;> simp <;> omega

theorem owing_notice {n : Nat} (kind : NoticeKind) (payload : List Byte) (s : State) (h : Owing n s) :
    Owing n (notice kind payload s) := by
  rcases notice_cases kind payload s with ⟨-, e⟩ | ⟨-, -, e⟩ | ⟨-, hn, e⟩ <;> rw [e]
  · exact h
  · exact owing_of rfl rfl rfl h
  · obtain ⟨a, b, c, d, e⟩ := h
    refine ⟨a, ?_, ?_, d, ?_⟩ <;> simp [countSort, pushMessage, updPort, owedReplies] at * <;> omega

theorem owing_inner (n : Nat) : Inner (Owing n) where
  points _ _ _ h := h
  out _ _ _ _ h := h
  notice := owing_notice
  cab _ _ h := h
  permit _ _ _ _ h := h
  untrip _ _ h := h
  op _ _ _ h := h
  result _ _ _ _ _ h := h
  unmark _ _ _ h := h
  mark _ _ _ _ h := h
  owner _ _ _ h := h

/-- A counted reply uses up the room for one. -/
theorem owing_reply {n : Nat} (code tag : Byte) (st : Status) (body : List Byte) (s : State)
    (h : Owing (n + 1) s) : Owing n (replyBytes code tag st body s) := by
  obtain ⟨a, b, c, d, e⟩ := h
  refine ⟨a, ?_, ?_, d, ?_⟩ <;> simp [countSort, replyBytes, pushMessage, updPort, owedReplies] at * <;> omega

/-- The reply that ends a transfer was owed. -/
theorem owing_settle {n : Nat} (k : Stn) (st : Status) (body : List Byte) (s : State) (h : Owing n s) :
    Owing n (endTransfer k st body s) := by
  unfold endTransfer; split
  · rename_i t ht
    refine owing_reply _ _ _ _ _ ?_
    obtain ⟨a, b, c, d, e⟩ := h
    have := owed_settled k (fun r => { r with transfer := none }) s (by simp [ht]) rfl
    exact ⟨a, b, c, d, by simp; omega⟩
  · exact h

theorem owing_link (n : Nat) : Link (Owing n) where
  toInner := owing_inner n
  line _ _ _ h := h
  outAny _ _ _ h := h
  sampled _ _ _ h := h
  station k f s he h := owing_of (s := s) rfl rfl (owed_station k f s he) h
  settle _ _ _ _ := owing_settle _ _ _ _
  stale _ _ h := h
  raw _ _ h := h
  choices _ _ h := h
  time _ _ h := h

theorem owing_timed (n : Nat) : Timed (Owing n) where
  toInner := owing_inner n
  timeTo _ _ h := h
  portRest _ _ ht hf h := owing_of ht hf rfl h

/-- Dropping a mode change and a write leaves no more replies owed than before. -/
theorem owing_drop {n : Nat} (s : State) (h : Owing n s) : Owing n (dropTimedWork s) := by
  obtain ⟨a, b, c, d, e⟩ := h
  exact ⟨a, b, c, d, by simp [owedReplies, dropTimedWork] at *; omega⟩

theorem owing_less {n : Nat} {s : State} (h : Owing (n + 1) s) : Owing n s := by
  obtain ⟨a, b, c, d, e⟩ := h; exact ⟨a, b, c, d, by omega⟩

/-- A tag that a table holds once frees one entry. -/
theorem filter_tag_len (l : List Outstanding) (x : Byte) (h : (l.map (·.tag)).Nodup) :
    l.length ≤ (l.filter (fun o => o.tag != x)).length + 1 := by
  induction l with
  | nil => simp
  | cons o l ih =>
    simp only [List.map_cons, List.nodup_cons] at h
    by_cases ho : o.tag = x
    · have : l.filter (fun o => o.tag != x) = l := by
        rw [List.filter_eq_self]; intro a ha
        have : a.tag ≠ o.tag := fun e => h.1 (e ▸ List.mem_map_of_mem (f := (·.tag)) ha)
        simpa [← ho] using this
      simp [ho, this]
    · have := ih h.2
      simp [ho]; omega

theorem countSort_begin (x : MessageSort) (m : Message) (p : HostPort) (rest : List Message) :
    countSort x ((beginMessage m p).1 :: rest) = countSort x (m :: rest) := by
  have : (beginMessage m p).1.sort = m.sort := by
    unfold beginMessage; split
    · split <;> rfl
    · rfl
  rw [countSort_cons, countSort_cons, this]

theorem owing_begun {n : Nat} (s : State) (h : Owing n s) : Owing n (updPort beginHead s) := by
  rcases hf : s.port.fifo with - | ⟨m, rest⟩
  · simpa [updPort, beginHead, hf] using h
  · have h2 : ((updPort beginHead s).port.table = s.port.table) := by
      simp only [updPort, beginHead, hf, beginMessage]; cases m.sort <;> simp; split <;> rfl
    obtain ⟨a, b, c, d, e⟩ := h
    have h3 : ∀ x, countSort x (updPort beginHead s).port.fifo = countSort x s.port.fifo := fun x => by
      rw [hf, ← countSort_begin x m s.port rest]; simp [updPort, beginHead, hf]
    unfold Owing; rw [h2, h3, h3, h3]; exact ⟨a, b, c, d, e⟩

theorem owing_sent {n : Nat} (s : State) (h : Owing n s) : Owing n (updPort sendHead s) := by
  have hb := owing_begun s h
  rcases hf : (beginHead s.port).fifo with - | ⟨m, rest⟩
  · exact owing_of (s := updPort beginHead s) (by simp [sendHead, hf]) (by simp [sendHead, hf]) rfl hb
  · obtain ⟨a, b, c, d, e⟩ := hb
    simp only [updPort_port, hf] at a b c d e
    have hp : (updPort sendHead s).port = { beginHead s.port with
        fifo := rest, sent := 0, table := freeTag m (beginHead s.port).table, lastFrame := messageBytes m } := by
      simp [updPort, sendHead, hf]
    have ho : owedReplies (updPort sendHead s) = owedReplies (updPort beginHead s) := rfl
    unfold Owing; rw [hp, ho]; dsimp only
    have hl := filter_tag_len (beginHead s.port).table m.tag d
    have hle : (freeTag m (beginHead s.port).table).length ≤ 8 := by
      unfold freeTag; split
      · exact le_trans (List.length_filter_le _ _) a
      · exact a
    refine ⟨hle, ?_, ?_, ?_, ?_⟩
    · rw [countSort_cons] at b; omega
    · rw [countSort_cons] at c; omega
    · unfold freeTag; split
      · exact d.sublist (List.Sublist.map _ List.filter_sublist)
      · exact d
    · unfold freeTag
      rw [countSort_cons] at e
      cases hm : m.sort <;> simp [hm] at * <;> omega

end Sys2Proof.Laws
end

