-- ==== Sys2Proof/Tests/Slice0.lean ====
section
/-! SUPPORT. Tests: ill-formed terms that WellFormed refuses, the manual's worked examples, and a witness for the
hypotheses of each statement. -/

namespace Sys2Proof.Tests

set_option Elab.async false

open Sys2Proof Sys2Proof.Machine Sys2Proof.Safety

/-! ### Helpers -/

/-- A station record in a state, under the built-in BASIC profile. -/
def stn (st : StationState) : StationRec :=
  { StationRec.reset with state := st, profile := some .builtInSpreader, identity := some ⟨7, 1, 12, 2⟩ }

/-- S-line station 2 in a state, with its writer as admission leaves it. -/
def withS2 (st : StationState) : State :=
  { State.reset with
    stations := State.reset.stations.set .s2 (stn st)
    outputs := State.reset.outputs.set .s2 (admitOut spreaderProfile) }

/-- A slot in progress on the S-line for station 2. -/
def slotOf (kind : SlotKind) (frame : FrameKind) (payload : List Byte) (length : Nat) : Slot :=
  ⟨kind, .s2, fieldFrame false 2 frame payload, ⟨48, 5000, 40⟩, length, false, false⟩

def withSlotS (x : Slot) (s : State) : State :=
  { s with lines := s.lines.set .s { s.lines.s with slot := some x } }

/-- An answer's bytes, the first inside the answer window. -/
def answer (x : Slot) (frame : List Byte) : List RxByte :=
  (List.range frame.length).map (fun i => ⟨windowOpens x + i * byteTime x, frame.getD i 0, true⟩)

/-- Group A bound to station 2, tripped or not, with a lock and a landed state. -/
def groupA (lock : LockState) (landed : LandedState) (trip : Bool) : GroupRec :=
  { GroupRec.unbound with
    bound := true, station := some .s2, corners := [⟨48, 49, 50, .unknown⟩], lock := lock, landed := landed,
    slackReady := true, trip := trip }

def withGroup (r : GroupRec) (owner : Owner) : State :=
  { withS2 .online with
    groups := State.reset.groups.set .a r
    owners := State.reset.owners.set .a ⟨owner, 4, ⟨none, none⟩⟩ }

def opRec : OpRec := ⟨.lock, .remote, 0, 2500, .queued, true, .s2⟩

def inMode (m : Mode) (s : State) : State := { s with hub := { s.hub with mode := m } }

/-- A host port with `fifo` waiting, `sent` bytes of its head sent, `table` outstanding and a HUB_RESET taken or not. -/
def withPort (fifo : List Message) (sent : Nat) (table : List Outstanding) (resetBy : Option Nat) : State :=
  { State.reset with port := { State.reset.port with fifo := fifo, sent := sent, table := table, resetBy := resetBy } }

def changing (m : Mode) (s : State) : State := { s with hub := { s.hub with change := some ⟨m, 9⟩ } }

def withTransferS2 (attempts : Nat) : State :=
  { withS2 .online with
    stations := State.reset.stations.set .s2 { stn .online with transfer := some ⟨.read, 5, 2, [], 7, attempts⟩ } }

/-- Station 2 ONLINE with a transfer in progress, its window mapped, and group A bound to it. -/
def carrying : State :=
  { withTransferS2 1 with
    points := mapProfileWindow .s2 spreaderProfile State.reset.points
    groups := State.reset.groups.set .a (groupA .allLocked .allLanded false)
    owners := State.reset.owners.set .a ⟨.cab, 4, ⟨none, none⟩⟩ }

theorem ready_of {s : State} {tag : Byte} (h1 : portClosed s = false) (h2 : tagHeld tag s = false)
    (h3 : s.port.table.length < 8) : Ready s tag := ⟨h1, h2, h3⟩

/-! ### WellFormed refuses ill-formed terms -/

def longPayload : List Byte := List.replicate 1025 0

theorem test_longPayload_refused : (Instr.pointsRead 1 longPayload).wellFormed = false := by decide +kernel
theorem test_longClaim_refused : (Instr.claimSet (.remote 1 longPayload)).wellFormed = false := by decide +kernel
theorem test_longOperate_refused : (Instr.operate (.remote 1 longPayload)).wellFormed = false := by decide +kernel
theorem test_knownCode_refused : (Instr.unknownRequest 81 1 []).wellFormed = false := by decide
theorem test_requestClass_refused : (Instr.wrongClassFrame 1 200 1 []).wellFormed = false := by decide
theorem test_noBytes_refused : (Instr.badHostFrame []).wellFormed = false := by decide
theorem test_bytesAtOnce_refused :
    (Instr.scanMiss .s [⟨100, 165, true⟩, ⟨100, 1, true⟩]).wellFormed = false := by decide

/-! ### The manual's worked examples -/

/-- R5: the CRC of the text 123456789 is 10,673. -/
theorem test_crc_reference : crc16 [49, 50, 51, 52, 53, 54, 55, 56, 57] = 10673#16 := by decide +kernel

/-- Section 2.2's table of slot costs. -/
theorem test_slotCosts :
    [8, 20, 24].map (stationSlotCost ⟨48, 5000, 40⟩) = [660, 900, 980] ∧
      probeSlotCost ⟨48, 5000, 40⟩ = 300 ∧ paramSlotCost ⟨48, 5000, 40⟩ = 930 := by decide

/-- Section 1.6: the slot's driver, window and end, in periods of 1/48 µs. -/
theorem test_slotTimes :
    let x : Slot := ⟨.station .s2, .s2, List.replicate 17 0, ⟨48, 5000, 40⟩, 900, false, false⟩
    (driverRises x, driverFalls x, windowOpens x, windowCloses x, slotEnds x) =
      (30 * 48, 200 * 48, 230 * 48, 270 * 48, 900 * 48) := by decide

/-- Section 1.6 and R2: the driver and the receiver at 30, 200 and 900 µs, and the first byte, 165, on STX: space, then
1, 0, 1, 0, 0, 1, 0, 1, then mark, a µs each. -/
theorem test_linePins :
    let x : Slot := ⟨.station .s2, .s2, fieldFrame false 2 .scan (List.replicate 11 0), ⟨48, 5000, 40⟩, 900, false, false⟩
    let s : State := { State.reset with lines := State.reset.lines.set .s { State.reset.lines.s with slot := some x } }
    [29, 30, 199, 200, 899, 900].map (fun us => (driverPin s .s (48 * us), receiverOpen s .s (48 * us))) =
        [(false, false), (true, false), (true, false), (false, true), (false, true), (false, false)] ∧
      (List.range 12).map (fun i => transmitPin s .s (48 * (29 + i))) =
        [true, false, true, false, true, false, false, true, false, true, true, false] ∧
      receivedByte 7 (wireBits 165) = some ⟨7, 165, true⟩ := by decide +kernel

/-- Section 4.3's worked figures of AIN scaling. -/
theorem test_ainScaling :
    [scaleAin 400 4608 3110, scaleAin 400 4608 3120, scaleAin 400 4608 100, scaleAin 400 1000 401,
      scaleAin 400 1000 399, scaleAin 0 32767 4095, scaleAin 4095 32767 0] =
      [12195, 12240, -1350, 0, -1, 32767, -32768] := by decide +kernel

/-- Section 6.6's worked size bands. -/
theorem test_sizeBands :
    [6057, 6106, 12168, 12163, 12195, 13725].map (fun v =>
      sizeOf { Point.unmapped with value := v, quality := .good } 25) =
      [.at20, .between, .at40, .between, .at40, .at45] := by decide

/-- Section 5.9: the list after the host's last write behind a LOCK start, and the batch that is then formed. -/
theorem test_combiningAcrossFence :
    let list := putWrite 7 1 (putWrite 7 0 (putWrite 7 1 (putWrite 7 0 []) ++ [.fence])
      ++ [.write 1 0, .fence, .write 0 1])
    list = [.write 7 1, .fence, .write 7 0, .write 1 0, .fence, .write 0 1, .write 7 1] ∧
      (formBatch ⟨list, none, 6, 6, 6, []⟩).inFlight = some ⟨7, [(7, 1)]⟩ := by decide

/-- Section 3.5: the twin-lift record as it is sent, with corner 3's unlocked input as given. -/
def twinLift (unlocked3 : Byte) : List Byte :=
  be16 3410 ++ [21, 8, 80] ++ (List.replicate 4 [1, 3, 0, 0, 0, 0, 0]).flatten
    ++ (List.replicate 16 [1, 2, 0, 0, 0, 0, 0]).flatten ++ [2, 0] ++ be16 400 ++ be16 4608 ++ [1]
    ++ (List.replicate 7 [3, 0, 0]).flatten ++ [3, 1, 0] ++ be16 100 ++ [3, 0] ++ be16 1000
    ++ [1, 0, 8, 0, 4, 5, 0, 6, 7, 1, 8, 9, 1, 10, unlocked3, 2, 12, 13, 2, 14, 15, 3, 16, 17, 3, 18, 19]
    ++ [0, 1] ++ be16 3000 ++ [1, 1, 20, 2, 3, 4, 25] ++ be16 20000 ++ [1, 5, 6] ++ be16 1500

/-- Section 3.5: the slip is BAD_PROFILE at field 22, element 3. -/
theorem test_twinLift_slip : readProfile (twinLift 10) = .error (.badProfile 22 3) := by decide +kernel

/-- Section 3.5: the corrected record passes, and is written back as it was sent (R55). -/
theorem test_twinLift_passes :
    (readProfile (twinLift 11)).toOption.map profileBytes = some (twinLift 11) := by decide +kernel

/-- The machine's own reset is the reset command on a part that was never written (R204, R206). -/
theorem test_reset : exec (.powerOnReset false 0 0) State.reset = .next State.reset := by
  show Host.Outcome.next (resetHub false 0 0 State.reset) = _
  exact congrArg _ (by decide +kernel)

/-- No row of the table has bits, so no word spells a command. -/
theorem test_noWord : decodeTableWord 8 3 = none := rfl

/-! ### Witnesses: a state and operands that meet the hypotheses of each statement -/

theorem whole {s : State} (h : s.points.length = 256) : ImageWhole s := h

def numbered (n : Nat) : Profile := { spreaderProfile with typeCode := n }

/-- Station 2's pending list replaced. -/
def withList (list : List Entry) (s : State) : State :=
  { s with outputs := s.outputs.set .s2 { s.outputs.get .s2 with list := list } }

theorem ready_reset (tag : Byte) : Ready State.reset tag := ready_of rfl rfl (by decide +kernel)

/-- A waiting command; an empty queue in the hub held in reset, on an SPI port, and with nothing to send. -/
theorem witness_StepRunsFrontCommand :
    ({ State.reset with pending := [.noticeSendBegin, .messageSent] } : State).pending =
        .noticeSendBegin :: [.messageSent] ∧
      State.reset.pending = [] ∧ ({ State.reset with held := true } : State).held = true ∧
      ({ State.reset with port := { State.reset.port with kind := .spi } } : State).port.kind = .spi ∧
      (withPort [] 0 [] none).port.fifo = [] := ⟨rfl, rfl, rfl, rfl, rfl⟩

theorem witness_CommandsLeaveQueueAlone : exec .modeTeardown State.reset = .next State.reset := rfl

theorem witness_ResetPinHoldsHub :
    State.reset.held = false ∧ ({ State.reset with held := true } : State).held = true ∧
      (∀ p b l, Instr.messageSent ≠ .powerOnReset p b l) ∧ (∀ p b l, Instr.messageSent ≠ .resetPinRelease p b l) :=
  ⟨rfl, rfl, fun _ _ _ h => (nomatch h), fun _ _ _ h => (nomatch h)⟩

/-- The three reset commands, a HUB_RESET whose reply has and one whose reply has not been sent, and an image that a
write in progress spoils. -/
theorem witness_ResetsReturnHub :
    ({ State.reset with held := true } : State).held = true ∧ State.reset.held = false ∧
      (withPort [] 0 [] (some 100)).port.resetBy = some 100 ∧
      (¬ ∃ o ∈ (withPort [] 0 [] (some 100)).port.table, o.code = 3) ∧
      (∃ o ∈ (withPort [] 0 [⟨3, 7⟩] (some 100)).port.table, o.code = 3) ∧
      (let s : State := { State.reset with store := ⟨.factory, some ⟨.factory, []⟩, false, some ⟨⟨.factory, []⟩, 1⟩⟩ }
       (none : Option Stored) = (if s.store.save.isSome then none else s.store.image) ∧
         Settings.factory = ((none : Option Stored).map (·.settings)).getD Settings.factory) :=
  ⟨rfl, rfl, rfl, by decide +kernel, by decide +kernel, rfl, rfl⟩

def queued : State := { State.reset with pending := [.hostSilenceEvent] }

theorem witness_StepKeepsPermitSafe : PermitSafe queued ∧ ∃ t, step queued = .next t := by
  refine ⟨⟨fun _ g => ?_, fun g h => ?_⟩, _, rfl⟩
  · cases g <;> rfl
  · cases g <;> cases h

theorem witness_StepKeepsMarksCurrent : MarksCurrent queued ∧ ∃ t, step queued = .next t :=
  ⟨fun g src m h => by (cases g <;> cases src <;> cases h), _, rfl⟩

theorem witness_StepKeepsPortLimits : PortWithinLimits queued ∧ ∃ t, step queued = .next t :=
  ⟨⟨by decide +kernel, by decide +kernel, by decide +kernel, by decide +kernel, by decide +kernel, by decide +kernel⟩,
    _, rfl⟩

theorem witness_StepKeepsTablesSound :
    ProfilesSound queued ∧ ImageWhole queued ∧ RemoteSlotsSound queued ∧ ∃ t, step queued = .next t :=
  ⟨⟨⟨by decide +kernel, List.Pairwise.nil⟩, fun _ h => (nomatch h), fun _ h => (nomatch h)⟩, whole (by decide +kernel),
    fun g q st h => by (cases g <;> cases h), _, rfl⟩

/-- A mode change pending and a save in progress, whose tags are outstanding. -/
def working : State :=
  { withPort [] 0 [⟨4, 9⟩, ⟨7, 8⟩] none with
    hub := ⟨.basic, some ⟨.run, 9⟩⟩, store := ⟨.factory, some ⟨.factory, []⟩, false, some ⟨⟨.factory, []⟩, 8⟩⟩ }

/-- R199, R205: a HUB_RESET drops the change and spoils the image, and the end of the write then makes neither. -/
theorem test_hubReset_dropsWork :
    ∀ t ∈ [hubResetRequest 1 [] working, storeWriteEnd true (hubResetRequest 1 [] working)],
      t.hub.change = none ∧ t.store.image = none ∧ t.port.table.length = 3 ∧
        t.port.fifo = [⟨.countedReply, 3, 1, [0], false, false⟩] := by decide +kernel

/-- A ready port with and without work that HUB_RESET drops; a port that a HUB_RESET has closed, its reply sent; and
one without a HUB_RESET. -/
theorem witness_HubResetClosesPort :
    Ready State.reset 1 ∧ Ready working 1 ∧ working.store.save.isSome = true ∧ working.hub.change.isSome = true ∧
      portClosed (withPort [] 0 [] (some 100)) = true ∧
      (withPort [] 0 [⟨34, 7⟩] (some 100)).port.resetBy.isSome = true ∧
      (∀ o ∈ (withPort [] 0 [⟨34, 7⟩] (some 100)).port.table, o.code ≠ 3) ∧
      (withPort [] 0 [⟨34, 7⟩] (some 100)).pending = [] ∧ State.reset.port.resetBy = none :=
  ⟨ready_reset 1, ready_of rfl (by decide +kernel) (by decide +kernel), rfl, rfl, rfl, rfl, by decide +kernel, rfl, rfl⟩

/-- A tag that is held, and eight outstanding requests of other tags. -/
theorem witness_RequestTakenOrRefused :
    (∃ f, requestHandler 7 5 [] = some f) ∧ Ready State.reset 5 ∧
      (let s : State := { State.reset with port := { State.reset.port with table := List.replicate 8 ⟨34, 9⟩ } }
       portClosed s = false ∧ tagHeld 9 s = true ∧ tagHeld 5 s = false ∧ 8 ≤ s.port.table.length) :=
  ⟨⟨_, rfl⟩, ready_reset 5, by decide +kernel⟩

theorem witness_UnknownCodeAndWrongClass :
    portClosed State.reset = false ∧ (82 : Byte).toNat ∉ requestCodes ∧ (2 : Byte) ≠ 1 := by decide +kernel

/-- A notice that has and one that has not begun, a counted and an uncounted reply, each before its last byte and at
it, on a port that sends and on one where a HUB_RESET's reply still waits; nothing to send; seven clocks. -/
theorem witness_MessagesLeaveInOrder :
    (∀ resetBy ∈ [none, some 100], ∀ sent ∈ [0, 7, 8],
      ∀ m ∈ [Message.mk .notice 134 0 [2] false false, Message.mk .notice 134 0 [2] true true,
          Message.mk .countedReply 3 4 [0] false false, Message.mk .uncountedReply 1 4 [1] false false],
        let s := withPort [m] sent [⟨3, 4⟩] resetBy
        s.held = false ∧ (s.port.resetBy = none ∨ ∃ o ∈ s.port.table, o.code = 3) ∧ s.port.fifo = m :: [] ∧
          ((m.sort = .notice ∧ m.begun = false) ∨ (m.sort = .notice ∧ m.begun = true) ∨
            m.sort = .countedReply ∨ m.sort = .uncountedReply) ∧
          s.port.kind = .uart ∧ s.pending = [] ∧
          (s.port.sent + 1 < 8 + m.payload.length ∨ 8 + m.payload.length ≤ s.port.sent + 1)) ∧
      (withPort [] 0 [] none).port.fifo = [] ∧ (List.replicate 7 true).length < 8 := by decide +kernel

/-- R179: the UART sends a message's bytes one after another, and its line then rests. -/
theorem test_uartSends :
    let m : Message := ⟨.countedReply, 1, 4, [0], false, false⟩
    let sends (n : Nat) : State := (List.range n).foldl (fun s _ => idlePort s) (withPort [m] 0 [⟨1, 4⟩] none)
    (List.range 10).map (fun n => nextOutbound (sends n)) =
        [some 126, some 0, some 1, some 2, some 1, some 4, some 0, (checkBytes [0, 1, 2, 1, 4, 0])[0]?,
          (checkBytes [0, 1, 2, 1, 4, 0])[1]?, none] ∧
      (sends 9).port.table = [] := by decide +kernel

/-- R179: eight clocks of an SPI transaction send one byte, most significant bit first; HCS rising before the next
byte's eighth clock leaves that byte to be sent whole. -/
theorem test_spiTransaction :
    let s : State := { withPort [⟨.countedReply, 1, 4, [0], false, false⟩] 0 [⟨1, 4⟩] none with
      port := { (withPort [⟨.countedReply, 1, 4, [0], false, false⟩] 0 [⟨1, 4⟩] none).port with kind := .spi } }
    (spiTransaction (List.replicate 11 true) s).2 =
        [false, true, true, true, true, true, true, false, false, false, false] ∧
      (spiTransaction (List.replicate 11 true) s).1.port.sent = 1 := by decide +kernel

/-- The longest payload whose check is wrong has length 1,024 in its header; here the shortest, and the least
length that is too long; a frame being assembled. -/
theorem witness_BadHostFramesAreCounted :
    portClosed State.reset = false ∧ State.reset.port.framer = [] ∧ State.reset.port.kind = .uart ∧
      (u16 0 0 ≤ 1024 ∧ ([1, 1, 1, 0, 0] : List Byte).length = u16 0 0 + 5 ∧
        (∀ b ∈ ([0, 0, 1, 1, 1, 0, 0] : List Byte), b ≠ 126) ∧
        checkBytes ([0, 0] ++ ([1, 1, 1, 0, 0] : List Byte).take (u16 0 0 + 3)) ≠
          ([1, 1, 1, 0, 0] : List Byte).drop (u16 0 0 + 3)) ∧
      (1024 < u16 4 1 ∧ (4 : Byte) ≠ 126 ∧ (1 : Byte) ≠ 126) ∧
      portClosed { State.reset with port := { State.reset.port with framer := [⟨126, true⟩] } } = false := by
  decide +kernel

theorem witness_FramerReadsEveryFrame : (List.replicate 1024 (126 : Byte)).length ≤ 1024 := by decide +kernel

/-- Group A owned by REMOTE, group B not. -/
theorem witness_HostSilenceLapsesRemote :
    let s := withGroup (groupA .allLocked .allLanded false) .remote
    s.held = false ∧ s.port.silenceTimer = some 1000 ∧ (s.owners.get .a).owner = .remote ∧
      (s.owners.get .b).owner ≠ .remote := by decide +kernel

theorem witness_HubInfoAndStatusReply : Ready State.reset 1 := ready_reset 1

theorem witness_ReadAndPointRequestsFrame :
    (∃ t, exec (.hubInfo 1 []) State.reset = .next t) ∧ (∃ t, exec (.changesClear 1 [0, 1, 0]) State.reset = .next t) ∧
      (∃ t, exec (.pointFence 1 [0, 2]) State.reset = .next t) ∧
      (∃ t, exec (.rawWrite 1 [0, 2, 0, 0, 1, 0]) State.reset = .next t) ∧
      ∃ t, exec (.pointWrite 1 [10, 0, 1]) State.reset = .next t :=
  ⟨⟨_, rfl⟩, ⟨_, rfl⟩, ⟨_, rfl⟩, ⟨_, rfl⟩, ⟨_, rfl⟩⟩

theorem witness_GroupCommandsFrame :
    (∃ t, exec (.claimRead (.cab .a)) State.reset = .next t) ∧ (∃ t, exec (.opStop (.remote 1 [0])) State.reset = .next t) ∧
      (∃ t, exec (.operate (.cab .b .lock)) State.reset = .next t) ∧ (∃ t, exec (.alertAck 1 []) State.reset = .next t) ∧
      ∃ t, exec .hostSilenceEvent State.reset = .next t :=
  ⟨⟨_, rfl⟩, ⟨_, rfl⟩, ⟨_, rfl⟩, ⟨_, rfl⟩, ⟨_, rfl⟩⟩

theorem witness_FieldCommandsFrame :
    (∃ t, exec (.cycleStart .s) State.reset = .next t) ∧ (∃ t, exec (.scanMiss .s []) State.reset = .next t) ∧
      (∃ t, exec (.holdoffExpiry .s2) State.reset = .next t) ∧ (∃ t, exec (.localInputFlip 0 true) State.reset = .next t) ∧
      (∃ t, exec (.localInputSample 255) State.reset = .next t) ∧ State.reset.hub.change = none :=
  ⟨⟨_, rfl⟩, ⟨_, rfl⟩, ⟨_, rfl⟩, ⟨_, rfl⟩, ⟨_, rfl⟩, rfl⟩

theorem witness_StationListAndRawSamplesReply :
    let s : State := { inMode .commission (withS2 .online) with raw := State.reset.raw.set .s2 (some ⟨none, true, 0⟩) }
    portClosed s = false ∧ tagHeld 1 s = false ∧ s.port.table.length < 8 ∧ s.hub.mode = .commission ∧
      s.raw.get .s2 = some ⟨none, true, 0⟩ ∧ State.reset.hub.mode ≠ .commission := by decide +kernel

/-- The table without and with the profile that is asked for. -/
theorem witness_SettingsAndProfileReplies :
    Ready State.reset 1 ∧ tableProfile State.reset (u16 13 82) = none ∧
      ∃ p, tableProfile { State.reset with profiles := [numbered 3410] } (u16 13 82) = some p :=
  ⟨ready_reset 1, by decide +kernel, numbered 3410, by decide +kernel⟩

theorem witness_GroupAndAlertStatusReply : Ready State.reset 1 := ready_reset 1

/-- A change pending; the same mode; a change that waits for a transfer; a change that waits for none. -/
theorem witness_ModeSetStartsChange :
    (changing .run State.reset).hub.change.isSome = true ∧
      (State.reset.hub.change = none ∧ State.reset.hub.mode = .basic) ∧
      (let s := withTransferS2 0
       Ready s 1 ∧ s.hub.change = none ∧ s.hub.mode ≠ .run ∧ noTransfers s = false) ∧
      noTransfers State.reset = true :=
  ⟨rfl, ⟨rfl, rfl⟩, ⟨ready_of rfl rfl (by decide +kernel), rfl, by decide +kernel, by decide +kernel⟩, by decide +kernel⟩

theorem witness_TeardownCompletesChange :
    let s := changing .run (withS2 .online)
    s.held = false ∧ s.hub.change = some ⟨.run, 9⟩ ∧ noTransfers s = true := by decide +kernel

/-- A C-line period below its least value, and the host's timeout turned off. -/
theorem witness_SettingsSetApplies :
    let payload : List Byte := [2, 4, 3, 231, 6, 0, 0]
    let items : List Item := [(4, 999), (6, 0)]
    Ready State.reset 1 ∧ wellFormedItems payload = some items ∧ items.all knownValue = true ∧
      (∀ i ∈ items, i.1 ≠ 18) ∧ lineFits .s (items.map clampItem) State.reset = true ∧
      lineFits .c ([(4, 10000), (6, 0)].map clampItem) State.reset = true ∧ State.reset.hub.change = none :=
  ⟨ready_reset 1, by decide +kernel, by decide +kernel, by decide +kernel, by decide +kernel, by decide +kernel, rfl⟩

/-- LIN0's accepted value at 0 and at 1; station 2 ONLINE with a transfer, a window and group A. -/
theorem witness_PlugUsedActsAtOnce :
    Ready carrying 1 ∧ carrying.hub.change = none ∧ (pointAt carrying 0).value = 0 ∧
      (carrying.stations.get .s2).state ≠ .absent ∧ (carrying.stations.get .s2).transfer.isSome = true ∧
      profileOf carrying .s2 = some spreaderProfile ∧ groupAt carrying .s2 = some .a ∧
      (pointAt { State.reset with points := Point.imageAtReset 255 } 0).value ≠ 0 :=
  ⟨ready_of rfl rfl (by decide +kernel), rfl, by decide +kernel⟩

/-- No item; a value that no enumeration has; a period that the schedule does not fit. -/
theorem witness_SettingsRefusedOrClamped :
    Ready State.reset 1 ∧ wellFormedItems [0] = none ∧
      (wellFormedItems [1, 18, 0, 2] = some [(18, 2)] ∧ [(18, 2)].all knownValue = false) ∧
      (wellFormedItems [1, 1, 0, 1] = some [(1, 1)] ∧ [(1, 1)].all knownValue = true ∧
        lineFits .s ([(1, 1)].map clampItem) State.reset = false) ∧ 20 < 21 :=
  ⟨ready_reset 1, by decide +kernel, by decide +kernel, by decide +kernel, by decide +kernel⟩

theorem witness_StoreSaveAndLoad :
    Ready State.reset 1 ∧ State.reset.store.save = none ∧
      (let s : State := { State.reset with store := ⟨.factory, none, true, some ⟨⟨.factory, []⟩, 1⟩⟩ }
       s.store.save.isSome = true ∧ s.held = false ∧ s.store.save = some ⟨⟨.factory, []⟩, 1⟩) :=
  ⟨ready_reset 1, rfl, rfl, rfl, rfl⟩

theorem witness_ProfileRecordRoundTrip : ∃ p, readProfile (twinLift 11) = .ok p :=
  ⟨(readProfile (twinLift 11)).toOption.getD spreaderProfile, by decide +kernel⟩

/-- A valid record that the table lacks, with room and without, and one it holds, free and in use. -/
theorem witness_ProfilePutAndDrop :
    let full : State := { State.reset with profiles := (List.range 12).map (fun n => numbered (n + 1)) }
    let free : State := { State.reset with profiles := [numbered 3410] }
    let inUse : State := { free with
      stations := State.reset.stations.set .s2 { stn .online with profile := some (.table 3410) } }
    (∃ p, readProfile (twinLift 11) = .ok p ∧ p.typeCode = 3410) ∧ readProfile (twinLift 10) = .error (.badProfile 22 3) ∧
      (tableProfile State.reset 3410 = none ∧ State.reset.profiles.length < 12) ∧
      (tableProfile full 3410 = none ∧ 12 ≤ full.profiles.length) ∧
      ((tableProfile free (u16 13 82)).isSome = true ∧ usersOf free (.table (u16 13 82)) = []) ∧
      (tableProfile inUse (u16 13 82)).isSome = true ∧ usersOf inUse (.table (u16 13 82)) ≠ [] :=
  ⟨⟨(readProfile (twinLift 11)).toOption.getD spreaderProfile, by decide +kernel, by decide +kernel⟩,
    by decide +kernel, by decide +kernel, by decide +kernel, by decide +kernel, by decide +kernel⟩

/-- The last range of the image, a mapped point and an UNMAPPED one. -/
theorem witness_PointsReadAndNotify :
    Ready State.reset 1 ∧ 1 ≤ (64 : Byte).toNat ∧ (64 : Byte).toNat ≤ 64 ∧
      (192 : Byte).toNat + (64 : Byte).toNat ≤ 256 ∧ (pointAt State.reset (15 : Byte).toNat).quality ≠ .unmapped ∧
      (pointAt State.reset (16 : Byte).toNat).quality = .unmapped :=
  ⟨ready_reset 1, by decide +kernel⟩

/-- A range one point too long, an empty one, and the whole image; a change of value. -/
theorem witness_ChangesClearWhole :
    Ready State.reset 1 ∧ ImageWhole State.reset ∧ 256 < (1 : Byte).toNat + u16 1 0 ∧ u16 0 0 = 0 ∧
      (1 ≤ u16 1 0 ∧ (0 : Byte).toNat + u16 1 0 ≤ 256) ∧
      (State.reset.points[0]? = some (Point.localInput 0 false) ∧
        (Point.imageAtReset 1)[0]? = some (Point.localInput 0 true) ∧
        (Point.localInput 0 false).value ≠ (Point.localInput 0 true).value) :=
  ⟨ready_reset 1, whole (by decide +kernel), by decide +kernel, by decide +kernel, by decide +kernel,
    by decide +kernel⟩

/-- The first and the last lamp line, at OFF and flashing. -/
theorem witness_LampLineWriteTakenOrHeld :
    let s : State := { State.reset with lampLines := State.reset.lampLines.set 5 ⟨.flashFast, none, true, some 125⟩ }
    Ready s 1 ∧ (∀ k ∈ [(0 : Fin 6), 5], (pointAt s (10 + k.val)).kind = .lamp ∧
        (pointAt s (10 + k.val)).home = .localPin (2 + k.val) ∧ (pointAt s (10 + k.val)).quality = .good ∧
        (pointAt s (10 + k.val)).owner = .free) ∧
      s.lampLines.length = 6 ∧ (lampAt s 0).mode = .off ∧ (lampAt s 5).mode = .flashFast :=
  ⟨ready_of rfl rfl (by decide +kernel), by decide +kernel⟩

/-- A free output of station 2, with a list of 13 entries and no write to combine with. -/
theorem witness_StationWriteEntersList :
    let p : Point := ⟨.dout, .station 2 1, 0, none, .good, 0, 0, false, false, false, .free⟩
    let s : State := withList (List.replicate 13 (.write 0 1))
      { withS2 .joining with points := State.reset.points.set 61 p }
    Ready s 1 ∧ (pointAt s (61 : Byte).toNat).kind = .dout ∧ (pointAt s (61 : Byte).toNat).quality ≠ .unmapped ∧
      (pointAt s (61 : Byte).toNat).owner = .free ∧
      writeTarget (61 : Byte).toNat (pointAt s (61 : Byte).toNat) = some (.output .s2 1) ∧
      (s.hub.mode = .commission → (61 : Byte).toNat ≤ 15) ∧ isScanned (s.stations.get .s2).state = true ∧
      (s.outputs.get .s2).list.length < 14 ∧ profileOf s .s2 = some spreaderProfile ∧
      outputPoint spreaderProfile 1 = (61 : Byte).toNat ∧ outputPoint spreaderProfile 1 < s.points.length :=
  ⟨ready_of rfl rfl (by decide +kernel), by decide +kernel⟩

/-- Not scanned; no need; a list with one place left, and a full one. -/
theorem witness_PointFenceAddsFence :
    let s (n : Nat) : State := withList (List.replicate n (.write 0 1)) (withS2 .online)
    Ready (s 13) 1 ∧ Ready (s 14) 1 ∧ isScanned (State.reset.stations.get .s2).state = false ∧
      (isScanned ((s 0).stations.get .s2).state = true ∧ ((s 0).outputs.get .s2).list = [] ∧
        ((s 0).outputs.get .s2).inFlight = none) ∧
      (((s 13).outputs.get .s2).list ≠ [] ∧ ((s 13).outputs.get .s2).list.getLast? ≠ some .fence) ∧
      14 ≤ ((s 14).outputs.get .s2).list.length :=
  ⟨ready_of rfl rfl (by decide +kernel), ready_of rfl rfl (by decide +kernel), by decide +kernel⟩

theorem witness_LampHalfPeriodsEnd :
    let l : LampRec := ⟨.flashSlow, some .flashFast, true, some 500⟩
    let s : State := { State.reset with
      lampLines := State.reset.lampLines.set 5 l, cab := { State.reset.cab with lamps := State.reset.cab.lamps.set 11 l } }
    s.held = false ∧ (lampAt s (5 : Fin 6).val).timer = some 500 ∧ s.lampLines.length = 6 ∧ ImageWhole s ∧
      (cabLamp s (11 : Fin 12).val).timer = some 500 ∧ s.cab.lamps.length = 12 :=
  ⟨rfl, rfl, rfl, whole (by decide +kernel), rfl, rfl⟩

/-- PLUG and another input; a sample one short of a flip, and one at which input 7 flips. -/
theorem witness_LocalInputsSampledAndFlipped :
    let s (n : Nat) : State :=
      { State.reset with points := State.reset.points.set 7 { Point.localInput 7 false with counter := n } }
    (s 18).held = false ∧ (s 18).hub.change = none ∧ (7 : Fin 8) ≠ 0 ∧ (s 18).store.working.plugUsed = true ∧
      (pointAt (s 18) 0).value ≠ true.toNat ∧ ImageWhole (s 18) ∧
      (∀ k, k < 8 → (pointAt (s 18) k).value = ((128 : Byte).getLsbD k).toNat ∨
        (pointAt (s 18) k).counter + 1 < (s 18).store.working.qualifyMs.getD k 20) ∧
      (s 19).held = false ∧ (s 19).hub.change = none ∧ (sampleInputs 128 (s 19)).points.length = 256 ∧
      (pointAt (sampleInputs 128 (s 19)) 7).value = 1 :=
  ⟨rfl, rfl, by decide +kernel, rfl, by decide +kernel, whole (by decide +kernel), by decide +kernel, rfl, rfl,
    by decide +kernel, by decide +kernel⟩

/-- A mapped station on the line, and another line. -/
theorem witness_CycleStartTakesUp :
    State.reset.held = false ∧ carrying.held = false ∧ lineOf .s2 = .s ∧
      isMapped (carrying.stations.get .s2).state = true ∧ profileOf carrying .s2 = some spreaderProfile ∧
      isMapped (carrying.stations.get .s1).state = false ∧ (.c : Line) ≠ .s := by decide +kernel

/-- R70, R71: points of age 8 pass a limit of 8 at a cycle start of 5 ms, points of age 7 do not. -/
theorem test_cycleStart_ages :
    let s (n : Nat) : State := { carrying with points := carrying.points.map (fun q => { q with age := n, quality := .good }) }
    let quality (n : Nat) := (pointAt (startCycle .s (s n)) 48).quality
    (quality 7, quality 8) = (.good, .stale) ∧ (startCycle .s (s 7)).staleLimits.s2 = some 8 := by decide +kernel

/-- Station 2 scanned and not; a candidate and none; a transfer and none. A slot with a request of 6 bytes: just before
it, the first period of its first start bit, the last of its last stop bit, and just behind it; no slot, no cycle, and
the RESET pin low. -/
theorem witness_SlotStartsSendRequest :
    (let x := slotOf .probe .roll [] 300
     let s := withSlotS x State.reset
     s.held = false ∧ (s.lines.get .s).running = true ∧ (s.lines.get .s).slot = some x ∧
       x.settings.divisor = 48 ∧ 30 * 48 - 1 < 30 * 48 ∧ x.request[0]? = some 165 ∧ x.request[5]?.isSome = true ∧
       ((30 + 10 * 0 + 0) * 48 ≤ 30 * 48 ∧ 30 * 48 < (30 + 10 * 0 + 0 + 1) * 48) ∧
       ((30 + 10 * 5 + 9) * 48 ≤ 90 * 48 - 1 ∧ 90 * 48 - 1 < (30 + 10 * 5 + 9 + 1) * 48) ∧
       (30 + 10 * x.request.length) * 48 ≤ 90 * 48 ∧ (State.reset.lines.get .s).slot = none ∧
       (stopEngine State.reset.lines.s).running = false ∧ (resetPinFall s).held = true) ∧
    let cycle (s : State) : State := { s with lines := s.lines.set .s { s.lines.s with
      plan := layoutFrom s ⟨48, 5000, 40⟩ 0 [.s2], suspended := false } }
    let s := cycle (withTransferS2 0)
    s.held = false ∧ plannedLength (s.lines.get (lineOf .s2)) (.station .s2) = some 740 ∧
      isScanned (s.stations.get .s2).state = true ∧ isScanned (State.reset.stations.get .s2).state = false ∧
      plannedLength (s.lines.get .s) .probe = some 300 ∧
      rotate (s.lines.get .s).probePtr (candidates s .s) = some .s1 ∧
      rotate (State.reset.lines.get .s).probePtr (candidates State.reset .s) = none ∧
      plannedLength (s.lines.get .s) .param = some 930 ∧
      rotate (s.lines.get .s).paramPtr (withTransfer s .s) = some .s2 ∧
      (s.stations.get .s2).transfer = some ⟨.read, 5, 2, [], 7, 0⟩ ∧
      rotate (State.reset.lines.get .s).paramPtr (withTransfer State.reset .s) = none := by decide +kernel

def scanSlot : Slot := slotOf (.station .s2) .scan [0, 0] 740

/-- Twelve samples of 0 with an echo and a status. -/
def scanFrame (echo status : Byte) : List Byte := fieldFrame true 2 .scanAnswer ([echo, status] ++ List.replicate 24 0)

/-- Station 2 DEGRADED, and ONLINE with an operation QUEUED whose write is in the batch that the answer's
echo acknowledges; with and without OUTPUTS_SAFE; and in COMMISSION mode. -/
theorem witness_GoodScanMakesOnline :
    let s (st : StationState) (m : Mode) (ops : ByGroup (Option OpRec)) : State := inMode m { withSlotS scanSlot (withS2 st) with
      outputs := State.reset.outputs.set .s2 ⟨[.write 1 0], some ⟨3, [(0, 1)]⟩, 3, 2, 2, [1, 0]⟩, ops := ops }
    let a (safe : Byte) := judge scanSlot .scanAnswer (readScan 12) (answer scanSlot (scanFrame 3 safe))
    (∀ x ∈ [s .degraded .basic ⟨none, none⟩, s .online .basic ⟨some opRec, none⟩, s .joining .commission ⟨none, none⟩],
      x.held = false ∧ x.hub.change = none ∧ (x.lines.get (lineOf .s2)).slot = some scanSlot ∧
        scanSlot.kind = .station .s2 ∧ scanSlot.stn = .s2 ∧ scanSlot.judged = false ∧ scanSlot.void = false ∧
        isScanned (x.stations.get .s2).state = true ∧ inputCount x .s2 = 12) ∧
      (a 0 = .ok ⟨3, false, List.replicate 12 0⟩ ∧ a 1 = .ok ⟨3, true, List.replicate 12 0⟩) ∧
      (profileOf (s .online .basic ⟨none, none⟩) .s2 = some spreaderProfile ∧ (0, 1) ∈ [((0 : Nat), (1 : Word))] ∧
        hasWrite 0 [.write 1 0] = false ∧ outputPoint spreaderProfile 0 < State.reset.points.length) ∧
      (opRec.station = .s2 ∧ opRec.phase = .queued ∧
        spreaderProfile.group.bind (driveOutput · opRec.kind) = some 0) ∧
      profileOf { State.reset with
        stations := State.reset.stations.set .s2 { stn .online with profile := none } } .s2 = none := by decide +kernel

/-- An answer that begins as the window opens and one as it closes, between two stray bytes; one whose last byte is late,
one of 65 bytes, one with a framing error and one with a wrong check. -/
theorem test_answersJudged :
    let noise : RxByte := ⟨windowOpens scanSlot - 1, 165, true⟩
    let sent (start : Nat) (frame : List Byte) : List RxByte :=
      (indexed 0 frame).map (fun w => ⟨start + w.1 * byteTime scanSlot, w.2, true⟩)
    let reads (rx : List RxByte) := judge scanSlot .scanAnswer (readScan 12) (noise :: rx ++ [noise])
    (reads (sent (windowOpens scanSlot) (scanFrame 3 1)) = .ok ⟨3, true, List.replicate 12 0⟩ ∧
      reads (sent (windowCloses scanSlot) (scanFrame 3 1)) = .ok ⟨3, true, List.replicate 12 0⟩) ∧
    (reads [] = .error .timeout ∧ reads (sent (windowCloses scanSlot + 1) (scanFrame 3 1)) = .error .timeout) ∧
    ([(sent (windowOpens scanSlot) (scanFrame 3 1)).set 31 ⟨slotEnds scanSlot, 0, true⟩,
      sent (windowOpens scanSlot) [165, 130, 2, 65],
      (sent (windowOpens scanSlot) (scanFrame 3 1)).set 9 ⟨0, 0, false⟩,
      sent (windowOpens scanSlot) ((scanFrame 3 1).set 9 1)].map reads = List.replicate 4 (.error .check)) ∧
    reads (sent (windowOpens scanSlot) (fieldFrame true 3 .scanAnswer (List.replicate 26 0))) = .error .mismatch := by
  decide +kernel

/-- Bytes that do not begin an answer; the answer of the longest payload, in a slot of 900 µs, whose last bytes are
late, and a whole one. -/
theorem witness_AnswersAreJudged :
    let sync : RxByte := ⟨windowCloses scanSlot, 165, true⟩
    let frame := fieldFrame true (addressOf scanSlot.stn) .scanAnswer (List.replicate 26 0)
    let sent := (indexed 0 frame).map (fun w => (⟨sync.start + w.1 * byteTime scanSlot, w.2, true⟩ : RxByte))
    (∀ b ∈ [RxByte.mk (windowOpens scanSlot - 1) 165 true, ⟨windowOpens scanSlot, 90, true⟩],
        b.value ≠ 165 ∨ b.start < windowOpens scanSlot ∨ windowCloses scanSlot < b.start) ∧
      sync.value = 165 ∧ windowOpens scanSlot ≤ sync.start ∧ sync.start ≤ windowCloses scanSlot ∧
      sync :: sent.tail = sent ∧ sync.start + (6 + 26) * byteTime scanSlot ≤ slotEnds scanSlot ∧
      (∀ b ∈ sent, b.start + byteTime scanSlot ≤ slotEnds scanSlot) ∧
      (let long := (indexed 0 (fieldFrame true 2 .scanAnswer (List.replicate 64 0))).map
          (fun w => (⟨sync.start + w.1 * byteTime scanSlot, w.2, true⟩ : RxByte))
       ∃ b ∈ long, slotEnds scanSlot < b.start + byteTime scanSlot) := by decide +kernel

/-- Silence; below the limit of 3 and at it, under RETRY (the built-in profile) and the three other policies, at a
station with a window, a transfer and a group that carries a locked load not known to be landed and has an operation
in flight. -/
theorem witness_MissedScanFollowsPolicy :
    let missing (policy : Policy) (misses : Nat) : State :=
      { withSlotS scanSlot carrying with
        profiles := [{ spreaderProfile with typeCode := 7, policy := policy }]
        groups := State.reset.groups.set .a (groupA .allLocked .partly false)
        ops := State.reset.ops.set .a (some opRec)
        stations := State.reset.stations.set .s2
          { carrying.stations.get .s2 with profile := some (.table 7), misses := misses } }
    ∀ policy ∈ [Policy.latch, .retry, .report, .ignore], ∀ misses ∈ [1, 2],
      (missing policy misses).held = false ∧ (missing policy misses).hub.change = none ∧
        isScanned ((missing policy misses).stations.get .s2).state = true ∧
        judge scanSlot .scanAnswer (readScan (inputCount (missing policy misses) .s2)) [] = .error .timeout ∧
        missRule (missing policy misses) .s2 = (3, policy) ∧
        ((missing policy misses).stations.get .s2).misses = misses ∧
        ((missing policy misses).stations.get .s2).transfer.isSome = true ∧
        (profileOf (missing policy misses) .s2).isSome = true ∧ groupAt (missing policy misses) .s2 = some .a ∧
        isOnline ((missing policy misses).stations.get .s2).state = true ∧
        ((missing policy misses).groups.get .a).lock = .allLocked ∧
        ((missing policy misses).groups.get .a).landed ≠ .allLanded ∧
        (missing policy misses).ops.get .a = some opRec ∧
        (∃ c ∈ ((missing policy misses).groups.get .a).corners, spreaderProfile.base ≤ c.landed ∧
          c.landed < spreaderProfile.base + windowSize spreaderProfile ∧
          c.landed < (missing policy misses).points.length) ∧ lineOf .s2 = .s := by
  decide +kernel

/-- R118, R152, R174: under LATCH the departure of that station raises three reasons, and the alert sounds. -/
theorem test_latch_raises :
    let s : State := { carrying with
      profiles := [{ spreaderProfile with typeCode := 7, policy := .latch }]
      groups := State.reset.groups.set .a (groupA .allLocked .partly false)
      ops := State.reset.ops.set .a (some { opRec with landingRequired := false })
      stations := State.reset.stations.set .s2 { stn .degraded with profile := some (.table 7), misses := 2 } }
    (scanMissed .s2 .check s).cab.alert.reasons = ⟨false, true, false, true, true⟩ ∧
      (scanMissed .s2 .check s).cab.alert.state = .sounding := by decide +kernel

def rollSlot : Slot := slotOf .probe .roll [] 300
def rollFrame : List Byte := fieldFrame true 2 .rollAnswer (be16 7 ++ be32 1234 ++ [12, 2])
def rolled : Identity := ⟨7, 1234, 12, 2⟩

/-- The state as the statement's `u` has it. -/
def heard (s : State) : State :=
  updStation .s2 (fun r => { r with identity := some rolled })
    (updLine .s (fun e => { e with slot := some { rollSlot with judged := true } }) s)

def probed (m : Mode) : State :=
  inMode m { withSlotS rollSlot State.reset with
    lines := State.reset.lines.set .s { State.reset.lines.s with slot := some rollSlot, suspended := false } }

/-- Admission under BASIC, with its window, group and outputs; refusal under RUN; admission in COMMISSION and, under a
period of 1 ms, its refusal; an answer not wanted; silence. -/
theorem witness_ProbeVerdictsDecideAdmission :
    let short (s : State) : State := { s with lines := s.lines.set .s { s.lines.s with inForce := ⟨48, 1000, 40⟩ } }
    (probed .basic).held = false ∧ ((probed .basic).lines.get (lineOf .s2)).slot = some rollSlot ∧
      judge rollSlot .rollAnswer readRoll (answer rollSlot rollFrame) = .ok rolled ∧
      isCandidate (probed .basic) .s2 = true ∧ (probed .basic).hub.change = none ∧
      (admissionCheck (heard (probed .basic)) .s2 rolled = .ok .builtInSpreader ∧
        resolveProfile (probed .basic) .builtInSpreader = some spreaderProfile ∧
        spreaderProfile.base + 13 < (probed .basic).points.length ∧ (spreaderProfile.inputs[11]?).isSome = true ∧
        spreaderProfile.inputs[12]? = none ∧ (spreaderProfile.outputs[1]?).isSome = true ∧
        isScanned (probed .basic).stations.c1.state = false ∧ spreaderProfile.group.isSome = true) ∧
      (let s : State := { probed .basic with
        stations := State.reset.stations.set .c1 { stn .online with profile := some .builtInCab } }
       isScanned s.stations.c1.state = true ∧ profileOf s .c1 = some cabProfile ∧ admissionCheck (heard s) .s2 rolled = .ok .builtInSpreader ∧
         (∀ n, n < 12 → outputPoint spreaderProfile 0 ≠ outputPoint cabProfile n) ∧ 16 ≤ outputPoint spreaderProfile 0) ∧
      admissionCheck (heard (probed .run)) .s2 rolled = .error .noProfile ∧
      budgetFits (heard (probed .commission)) .s2 rolled.inputs = true ∧
      budgetFits (heard (short (probed .commission))) .s2 rolled.inputs = false ∧
      isCandidate (withSlotS rollSlot State.reset) .s2 = false ∧
      judge rollSlot .rollAnswer readRoll [] = .error .timeout := by decide +kernel

/-- R64, R93: an admission under the built-in profile maps its window, WAITING and PENDING, and sends batch 1. -/
theorem test_rollAnswer_admits :
    let t := admission .s2 rolled (probed .basic)
    ([48, 59, 60, 61, 62].map (fun i => (pointAt t i).quality)) = [.waiting, .waiting, .pending, .pending, .unmapped] ∧
      (t.outputs.get .s2).inFlight = some ⟨1, [(0, 0), (1, 0)]⟩ ∧ t.groups.a.bound = true := by decide +kernel

def paramSlotX : Slot := slotOf .param .paramGet [0, 5, 2] 930

/-- An accepted read, a rejection, and silence at the second and the third attempt. -/
theorem witness_ParamVerdictsSettleTransfer :
    let s := withSlotS paramSlotX (withTransferS2 3)
    let tr : Transfer := ⟨.read, 5, 2, [], 7, 3⟩
    s.held = false ∧ s.hub.change = none ∧ (s.lines.get (lineOf .s2)).slot = some paramSlotX ∧
      paramSlotX.kind = .param ∧ paramSlotX.stn = .s2 ∧ paramSlotX.judged = false ∧ paramSlotX.void = false ∧
      (s.stations.get .s2).transfer = some tr ∧
      judge paramSlotX .paramAnswer (readParam tr)
        (answer paramSlotX (fieldFrame true 2 .paramAnswer [0, 5, 2, 0, 171, 205])) = .ok (.accepted [171, 205]) ∧
      judge paramSlotX .paramAnswer (readParam tr)
        (answer paramSlotX (fieldFrame true 2 .paramAnswer [0, 5, 2, 1])) = .ok .rejected ∧
      judge paramSlotX .paramAnswer (readParam tr) [] = .error .timeout ∧ 3 ≤ tr.attempts ∧
      ((withTransferS2 2).stations.get .s2).transfer.map (·.attempts) = some 2 := by decide +kernel

/-- A HOLDOFF of a station with a group; a station to restart, and one already ABSENT. -/
theorem witness_HoldoffAndRestartToAbsent :
    let s : State := { carrying with
      stations := State.reset.stations.set .s2 { stn .holdoff with holdoffExpiry := some 2000 } }
    s.held = false ∧ (s.stations.get .s2).state = .holdoff ∧ (s.stations.get .s2).holdoffExpiry = some 2000 ∧
      groupAt s .s2 = some .a ∧ profileOf s .s2 = some spreaderProfile ∧
      Ready carrying 1 ∧ carrying.hub.change = none ∧ (carrying.stations.get .s2).state ≠ .absent ∧
      (carrying.stations.get .s2).transfer.isSome = true ∧ (s.stations.get .s1).state = .absent :=
  ⟨rfl, rfl, rfl, by decide +kernel, by decide +kernel, ready_of rfl rfl (by decide +kernel), rfl, by decide +kernel,
    rfl, rfl⟩

/-- R104, R111, R119: a group with a telescope whose station goes from HOLDOFF to ABSENT has an UNKNOWN size until it
is unbound, so the unbinding's GROUP notice is the only one. -/
theorem test_holdoffExpiry_oneGroupNotice :
    let gp : GroupPart := { (spreaderProfile.group.getD ⟨.a, [], 0, 1, 0, false, none, none⟩) with
      size := some ⟨0, 0, 0, 1, 25, 9000⟩ }
    let s : State := { carrying with
      profiles := [{ spreaderProfile with typeCode := 7, group := some gp }]
      stations := State.reset.stations.set .s2
        { stn .holdoff with profile := some (.table 7), holdoffExpiry := some 2000 }
      groups := State.reset.groups.set .a { groupA .unknown .unknown false with size := .unknown, position := some 48 } }
    (((holdoffEnds .s2 s).port.fifo.filter (fun m => m.code == 130)).map (·.payload)) = [[0, 0, 0, 0, 1, 0, 0, 0, 0]] := by
  decide +kernel

/-- The longest data; a change pending; an ABSENT station; an ONLINE one without a transfer. -/
theorem witness_ParamRequestBecomesTransfer :
    Ready (withS2 .online) 1 ∧ 1 ≤ (32 : Byte).toNat ∧ (32 : Byte).toNat ≤ 32 ∧
      (List.replicate 32 (0 : Byte)).length = (32 : Byte).toNat ∧ (changing .run State.reset).hub.change.isSome = true ∧
      (withS2 .online).hub.change = none ∧ isOnline (State.reset.stations.get .s2).state = false ∧
      isOnline ((withS2 .online).stations.get .s2).state = true ∧ ((withS2 .online).stations.get .s2).transfer = none :=
  ⟨ready_of rfl rfl (by decide +kernel), by decide +kernel⟩

/-- A station in COMMISSION mode whose list has 12 entries (a write and its FENCE fit) and 13 (they do not). -/
theorem witness_RawWriteEntersList :
    let s (n : Nat) : State := withList (List.replicate n (.write 0 1)) { inMode .commission (withS2 .online) with
      stations := State.reset.stations.set .s2 { stn .online with profile := none } }
    Ready (s 12) 1 ∧ Ready (s 13) 1 ∧ State.reset.hub.mode ≠ .commission ∧ (s 12).hub.mode = .commission ∧
      isScanned ((s 12).stations.get .s2).state = true ∧ (1 : Byte).toNat < reportedOutputs (s 12) .s2 ∧
      ((s 12).stations.get .s2).profile = none ∧
      ((s 12).outputs.get .s2).list.length + ((if combines (1 : Byte).toNat ((s 12).outputs.get .s2).list then 0 else 1)
        + true.toNat) ≤ 14 ∧
      14 < ((s 13).outputs.get .s2).list.length + ((if combines (1 : Byte).toNat ((s 13).outputs.get .s2).list then 0 else 1)
        + true.toNat) :=
  ⟨ready_of rfl rfl (by decide +kernel), ready_of rfl rfl (by decide +kernel), by decide +kernel⟩

/-- A bound group, with the cab station ONLINE. -/
def withCab (owner : Owner) (marks : BySource (Option Mark)) : State :=
  { withGroup (groupA .allUnlocked .allLanded false) owner with
    stations := ((withS2 .online).stations).set .c1 { stn .online with profile := some .builtInCab }
    owners := State.reset.owners.set .a ⟨owner, 4, marks⟩ }

theorem witness_ClaimReadMakesMark :
    let s := withCab .none ⟨none, none⟩
    s.hub.mode ≠ .commission ∧ s.hub.change = none ∧ (s.groups.get .a).bound = true ∧ Ready s 1 ∧ s.held = false ∧
      isOnline s.stations.c1.state = true :=
  ⟨by decide +kernel, rfl, rfl, ready_of rfl rfl (by decide +kernel), rfl, rfl⟩

/-- A fresh mark, as another owner and as the owner itself; no mark; the owner's and another's release. -/
theorem witness_ClaimSetAndReleaseChangeOwner :
    let fresh (o : Owner) := withCab o ⟨none, some ⟨4, 5000⟩⟩
    Ready (fresh .cab) 1 ∧ Ready (fresh .remote) 1 ∧ (fresh .cab).hub.mode ≠ .commission ∧
      (fresh .cab).hub.change = none ∧ ((fresh .cab).groups.get .a).bound = true ∧
      ((fresh .cab).owners.get .a).marks.remote = some ⟨4, 5000⟩ ∧
      (⟨4, 5000⟩ : Mark).generation = ((fresh .cab).owners.get .a).generation ∧
      ((fresh .cab).owners.get .a).owner ≠ .remote ∧ ((fresh .remote).owners.get .a).owner = .remote ∧
      ((withCab .cab ⟨none, none⟩).owners.get .a).marks.remote = none :=
  ⟨ready_of rfl rfl (by decide +kernel), ready_of rfl rfl (by decide +kernel), by decide +kernel⟩

theorem witness_CabClaimsChangeOwner :
    let s := withCab .remote ⟨some ⟨4, 5000⟩, none⟩
    s.held = false ∧ s.hub.mode ≠ .commission ∧ s.hub.change = none ∧ isOnline s.stations.c1.state = true ∧
      (s.groups.get .a).bound = true ∧ (s.owners.get .a).marks.cab = some ⟨4, 5000⟩ ∧
      (⟨4, 5000⟩ : Mark).generation = (s.owners.get .a).generation ∧ (s.owners.get .a).owner ≠ .cab ∧
      (inMode .commission s).hub.mode = .commission ∧ ((withCab .cab ⟨none, none⟩).owners.get .a).owner = .cab := by decide +kernel

theorem witness_MarkExpiryRemovesMark :
    let s := withCab .none ⟨some ⟨4, 5000⟩, some ⟨4, 5000⟩⟩
    s.held = false ∧ ∀ src ∈ [Source.cab, .remote], (s.owners.get .a).marks.get src = some ⟨4, 5000⟩ := by decide +kernel

/-- A refused, an already finished and a started LOCK, of the host and of the cab; a payload without a kind. -/
theorem witness_OperateStartsOperation :
    let s (lock : LockState) (o : Owner) := withGroup (groupA lock .allLanded false) o
    let u (lock : LockState) (o : Owner) := acceptRequest 68 1 (s lock o)
    Ready (s .allUnlocked .remote) 1 ∧ (s .allUnlocked .cab).held = false ∧
      (∀ g kind, ([0] : List Byte) ≠ [groupCode g, opKindCode kind]) ∧
      checkStart .a .lock .cab (s .allUnlocked .remote) = .refuse .notOwner ∧
      checkStart .a .lock .cab (s .allLocked .cab) = .alreadyDone ∧
      checkStart .a .lock .remote (u .allUnlocked .cab) = .refuse .notOwner ∧
      checkStart .a .lock .remote (u .allLocked .remote) = .alreadyDone ∧
      (∃ k gp n, checkStart .a .lock .cab (s .allUnlocked .cab) = .start k gp n) ∧
      ∃ k gp n, checkStart .a .lock .remote (u .allUnlocked .remote) = .start k gp n :=
  ⟨ready_of rfl rfl (by decide +kernel), rfl, fun _ _ => by simp, by decide +kernel, by decide +kernel,
    by decide +kernel, by decide +kernel, ⟨_, _, _, rfl⟩, _, _, _, rfl⟩

/-- Each of the seven checks fails in some state, and none in the last; both rows of LOCK and of UNLOCK, a SIZE kind
whose interlock and target hold, and a FLIP kind. -/
theorem witness_StartChecksInOrder :
    let s (lock : LockState) (landed : LandedState) := withGroup (groupA lock landed false) .remote
    let busy : State := { s .allUnlocked .allLanded with ops := State.reset.ops.set .a (some opRec) }
    let full (n : Nat) : State := withList (List.replicate n .fence) (s .allUnlocked .allLanded)
    let r (lock : LockState) (landed : LandedState) (trip : Bool) : GroupRec := { groupA lock landed trip with size := .at40 }
    (changing .run State.reset).hub.change.isSome = true ∧ (State.reset.groups.get .a).bound = false ∧
      ownerIs (s .allUnlocked .allLanded) .a .cab = false ∧
      ((busy.ops.get .a).isSome = true ∧ ownerIs busy .a .remote = true ∧ groupOnline busy .a = true) ∧
      (groupPartOf (s .allUnlocked .allLanded) .a).bind (deadlineLength · .size20) = none ∧
      (groupPartOf (s .allUnlocked .allLanded) .a).map (·.lockMs) = some 2500 ∧
      ([(r .allUnlocked .partly false, OpKind.lock), (r .transit .unknown true, .lock), (r .allLocked .allLanded false, .lock),
        (r .allLocked .allLanded false, .unlock), (r .allLocked .allLanded true, .unlock),
        (r .allUnlocked .noneLanded false, .size40), (r .allLocked .noneLanded false, .size40),
        (r .transit .unknown true, .flipUp)].map (fun x => (interlockHolds x.1 x.2, targetHolds x.1 x.2)) =
        [(false, false), (true, false), (true, true), (true, false), (false, false), (true, true), (false, true),
          (true, false)]) ∧
      (11 < ((full 12).outputs.get .s2).list.length ∧ ¬ 11 < ((full 11).outputs.get .s2).list.length) := by
  decide +kernel

/-- R142, R143: the tables row by row, from the rule's own words, at a group ALL_UNLOCKED and NONE_LANDED at 20 feet. -/
theorem test_interlockTable :
    let r (trip : Bool) : GroupRec := { groupA .allUnlocked .noneLanded trip with size := .at20 }
    [OpKind.lock, .unlock, .size20, .size40, .size45, .flipUp, .flipDown].map (fun k =>
        (interlockHolds (r false) k, interlockHolds (r true) k, targetHolds (r false) k)) =
      [(false, true, false), (false, false, true), (true, true, true), (true, true, false), (true, true, false),
        (true, true, false), (true, true, false)] := by decide

/-- No operation; a LOCK, and a FLIP_UP that is DRIVING, of the host and of the cab, with the station in each state that
the release tells apart. -/
theorem witness_StopAndDeadlineEndOperation :
    let s (o : Owner) (st : StationState) (r : OpRec) : State := { withGroup (groupA .allUnlocked .allLanded false) o with
      ops := State.reset.ops.set .a (some r)
      stations := State.reset.stations.set .s2 (stn st)
      points := mapProfileWindow .s2 spreaderProfile State.reset.points }
    let flip : OpRec := { opRec with kind := .flipUp, phase := .driving }
    State.reset.ops.get .a = none ∧ Ready (s .remote .online opRec) 1 ∧
      (∀ st ∈ [StationState.joining, .online, .degraded, .holdoff, .fault, .absent], ∀ o ∈ [Owner.remote, .cab],
        ∀ r ∈ [opRec, flip],
        (s o st r).ops.get .a = some r ∧ (s o st r).held = false ∧ ((s o st r).owners.get .a).owner = o ∧
          r.station ≠ .c1 ∧ profileOf (s o st r) r.station = some spreaderProfile ∧
          ((s o st r).stations.get r.station).state = st ∧ ((s o st r).outputs.get r.station).list.length < 16 ∧
          isScanned (s o st r).stations.c1.state = false) ∧
      spreaderProfile.group.bind (driveOutput · opRec.kind) = some 0 ∧ 16 ≤ outputPoint spreaderProfile 0 ∧
      outputPoint spreaderProfile 0 < (s .cab .online opRec).points.length ∧
      ((flip.kind = .flipUp ∨ flip.kind = .flipDown) ∧ flip.phase = .driving) ∧
      ¬ ((opRec.kind = .flipUp ∨ opRec.kind = .flipDown) ∧ opRec.phase = .driving) :=
  ⟨rfl, ready_of rfl rfl (by decide +kernel), by decide +kernel⟩

theorem witness_ResultTakeWhole :
    Ready State.reset 1 ∧ groupPayload [2] = none ∧ (State.reset.results.get .a).get .remote = none :=
  ⟨ready_reset 1, rfl, rfl⟩

/-- No group; another owner; no trip; a trip to clear; a trip that stands, in either way. -/
theorem witness_TripClearClearsTrip :
    let s (lock : LockState) (landed : LandedState) (trip : Bool) := withGroup (groupA lock landed trip) .remote
    Ready (s .allUnlocked .allLanded true) 1 ∧ (State.reset.groups.get .a).bound = false ∧
      ((s .transit .partly true).groups.get .a).bound = true ∧
      ((withGroup (groupA .transit .partly true) .cab).owners.get .a).owner ≠ .remote ∧
      ((s .transit .partly true).owners.get .a).owner = .remote ∧
      ((s .transit .partly false).groups.get .a).trip = false ∧
      (((s .allUnlocked .allLanded true).groups.get .a).trip = true ∧
        ((s .allUnlocked .allLanded true).groups.get .a).lock = .allUnlocked ∧
        ((s .allUnlocked .allLanded true).groups.get .a).landed ≠ .unknown ∧
        (s .allUnlocked .allLanded true).ops.get .a = none) ∧
      (((s .transit .partly true).groups.get .a).lock ≠ .allLocked ∧
        ((s .transit .partly true).groups.get .a).lock ≠ .allUnlocked) ∧
      ((s .allLocked .unknown true).groups.get .a).landed = .unknown :=
  ⟨ready_of rfl rfl (by decide +kernel), by decide +kernel⟩

/-- Points 48 to 50 as one corner's landed, locked and unlocked inputs, in each case of the statement. -/
theorem witness_CornerLockAndLandedStates :
    let good (v : Int) : Point := { Point.unmapped with value := v, quality := .good }
    let s (landed locked unlocked : Int) : State :=
      { withGroup (groupA .unknown .unknown false) .none with
        points := ((State.reset.points.set 48 (good landed)).set 49 (good locked)).set 50 (good unlocked) }
    let states (x : State) := (evalRecord x .a).corners.map (·.state)
    Point.unmapped.quality ≠ .good ∧ (good 1).quality = .good ∧ (good 1).value = 1 ∧ (good 0).value = 0 ∧
      states (withGroup (groupA .unknown .unknown false) .none) = [.unknown] ∧ states (s 1 1 1) = [.conflict] ∧
      states (s 1 1 0) = [.locked] ∧ states (s 0 0 1) = [.unlocked] ∧ states (s 0 0 0) = [.moving] ∧
      (pointAt (s 1 1 0) 48).quality = .good ∧ (pointAt (s 1 1 0) 48).value = 1 ∧
      (pointAt (s 0 1 0) 48).value = 0 ∧ (evalRecord (s 1 1 0) .a).lock = .allLocked ∧
      (∀ c ∈ (groupA .unknown .unknown false).corners, c.landed = 48) ∧ (pointAt State.reset 48).quality ≠ .good := by
  decide +kernel

/-- A group without a size part, and one with a telescope at each band's end, between two bands and not GOOD; with and
without require_slack (R106, R111). -/
theorem witness_EvaluationSetsTripAndPermit :
    let part (slack : Bool) : GroupPart := { (spreaderProfile.group.getD ⟨.a, [], 0, 1, 0, false, none, none⟩) with
      requireSlack := slack, size := some ⟨0, 0, 0, 1, 25, 9000⟩ }
    let s (slack : Bool) (quality : Quality) (v : Int) : State :=
      { withGroup { groupA .allLocked .allLanded false with position := some 60 } .none with
        profiles := [{ spreaderProfile with typeCode := 7, group := some (part slack) }]
        stations := State.reset.stations.set .s2 { stn .online with profile := some (.table 7) }
        points := State.reset.points.set 60 { Point.unmapped with value := v, quality := quality } }
    let bare := withGroup (groupA .allLocked .allLanded false) .none
    (groupPartOf bare .a).map (·.size.isSome) = some false ∧ (evalRecord bare .a).size = .notFitted ∧
      (∀ slack ∈ [true, false], groupPartOf (s slack .good 0) .a = some (part slack)) ∧
      ((s true .good 0).groups.get .a).position = some 60 ∧
      ([6033, 6083, 12167, 12217, 13691, 13741, 6032, 13742].map (fun v => (evalRecord (s true .good v) .a).size) =
        [.at20, .at20, .at40, .at40, .at45, .at45, .between, .between]) ∧
      (evalRecord (s true .fault 6058) .a).size = .unknown ∧
      ((evalRecord (s true .good 0) .a).slackReady, (evalRecord (s false .good 0) .a).slackReady) = (false, true) := by
  decide +kernel

/-- The selected and the other group, lamps at rest and flashing; a selection; the first and the last button, pressed
and released. -/
theorem witness_CabServiceSelectsAndMirrors :
    let p (v : Int) : Point := ⟨.din, .cab 0, v, none, .good, 0, 0, false, false, false, .free⟩
    let s : State := { State.reset with
      points := (State.reset.points.set 16 (p 0)).set 27 (p 1)
      cab := { State.reset.cab with lamps := State.reset.cab.lamps.set 3 ⟨.flashSlow, none, true, some 9⟩ } }
    s.cab.lamps.length = 12 ∧ s.cab.selected = .a ∧ (.b : Group) ≠ s.cab.selected ∧
      (cabLamp s 0).mode = .off ∧ (cabLamp s 3).mode = .flashSlow ∧
      (s.points[28]?.map (·.quality) = some .unmapped ∧ (s.points.set 28 (p 1))[28]? = some (p 1)) ∧
      s.points[16 + 0]? = some (p 0) ∧ s.points[16 + 11]? = some (p 1) ∧
      ((p 0).quality = .good ∧ (p 1).quality = .good ∧ (p 0).value = 0 ∧ (p 1).value = 1 ∧ (p 0).value ≠ (p 1).value) := by
  decide +kernel

/-- R163, R164, R165: one change set selects group B by GROUP_SEL and then has button 0's edge, B's LOCK; with no
group bound it is refused into the CAB slot. -/
theorem test_buttonPressed :
    let p (v : Int) : Point := ⟨.din, .cab 0, v, none, .good, 0, 0, false, false, false, .free⟩
    let s : State := { State.reset with points := (State.reset.points.set 16 (p 0)).set 28 (p 0) }
    let t := deliverPoints ((s.points.set 16 (p 1)).set 28 (p 1)) s
    t.cab.selected = .b ∧ (t.results.get .b).get .cab = some (.refused (.op .lock) .notOnline) := by decide +kernel

/-- A timer of each kind; an alert that is QUIET, SOUNDING and RESTING; an evaluation that sets the trip and one that
does not. -/
theorem witness_AlertAcknowledgedAndTimed :
    let s (a : Alert) : State := { State.reset with cab := { State.reset.cab with alert := a } }
    let good (v : Int) : Point := { Point.unmapped with value := v, quality := .good }
    let falling (landed : Int) : State := { withGroup (groupA .allLocked .noneLanded false) .none with
      points := ((State.reset.points.set 48 (good landed)).set 49 (good 0)).set 50 (good 1) }
    (State.reset.cab.alert.state ≠ .sounding ∧ ((falling 0).groups.get .a).bound = true ∧
      (evalRecord (falling 0) .a).trip = true ∧ ((falling 0).groups.get .a).trip = false ∧
      (evalRecord (falling 1) .a).trip = false) ∧
    Ready State.reset 1 ∧
      (s ⟨.sounding, ⟨true, false, false, false, false⟩, 254, some 3000, none⟩).cab.alert.soundTimer = some 3000 ∧
      (s ⟨.resting, ⟨true, false, false, false, false⟩, 255, none, some 7000⟩).cab.alert.restTimer = some 7000 ∧
      State.reset.held = false :=
  ⟨by decide +kernel, ready_reset 1, rfl, rfl, rfl⟩

end Sys2Proof.Tests
end

section
/-! CHANGES_CLEAR (R82): the flags of a range are cleared point by point, and a change set raises the flag of each
of its points again (R79). -/

namespace Sys2Proof.Proofs

open Sys2Proof Sys2Proof.Machine Sys2Proof.Safety

/-! ### The flags of a range -/

@[simp] theorem length_points_clearFlags (first count : Nat) (s : State) :
    (clearFlags first count s).points.length = s.points.length := length_mapWindow _ _ _ _

/-- Beyond the image both sides are the UNMAPPED point, whose flag is down already. -/
theorem pointAt_clearFlags (first count i : Nat) (s : State) :
    pointAt (clearFlags first count s) i =
      if first ≤ i ∧ i < first + count then { pointAt s i with changed := false } else pointAt s i := by
  have window : (i < first ∨ first + count ≤ i) ↔ ¬(first ≤ i ∧ i < first + count) := by omega
  simp only [pointAt, clearFlags, mapWindow_eq, List.getD_eq_getElem?_getD, List.getElem?_mapIdx, window]
  cases s.points[i]? with
  | none => simp [Point.unmapped]
  | some p => by_cases h : first ≤ i ∧ i < first + count <;> simp [h]

/-- A reply after the flags are cleared: the port gains what it would without. -/
theorem replyBytes_clearFlags_eq (code tag : Byte) (st : Status) (body : List Byte) (first count : Nat) (s : State) :
    replyBytes code tag st body (clearFlags first count s) =
      { replyBytes code tag st body s with points := (clearFlags first count s).points } := rfl

/-! ### The flags of a change set -/

theorem pointNotice_points (s : State) (c : Change) : (pointNotice s c).points = s.points := by
  unfold pointNotice
  split
  · exact notice_points _ _ _
  · rfl

theorem foldl_pointNotice_points (cs : List Change) (s : State) : (cs.foldl pointNotice s).points = s.points := by
  induction cs generalizing s with
  | nil => rfl
  | cons c cs ih => rw [List.foldl_cons, ih, pointNotice_points]

theorem commitPoints_points (new : List Point) (s : State) :
    (commitPoints new s).1.points = flagChanges s.points new := foldl_pointNotice_points _ _

theorem samePoint_eq_false {p q : Point} (h : p.value ≠ q.value ∨ p.quality ≠ q.quality) :
    samePoint p q = false := by
  rcases h with h | h <;> simp [samePoint, h]

theorem getElem?_flagChanges {old new : List Point} {i : Nat} {p q : Point} (hp : old[i]? = some p)
    (hq : new[i]? = some q) :
    (flagChanges old new)[i]? = some (if samePoint p q then q else { q with changed := true }) := by
  induction old generalizing new i with
  | nil => simp at hp
  | cons p' ps ih =>
    cases new with
    | nil => simp at hq
    | cons q' qs =>
      cases i with
      | zero =>
        obtain rfl : p' = p := by simpa using hp
        obtain rfl : q' = q := by simpa using hq
        rfl
      | succ i => exact ih hp hq

/-- R79: a point whose value or quality moves has its flag up in the image that a change set leaves. -/
theorem commitPoints_changed {s : State} {new : List Point} {i : Nat} {p q : Point} (hp : s.points[i]? = some p)
    (hq : new[i]? = some q) (h : p.value ≠ q.value ∨ p.quality ≠ q.quality) :
    (pointAt (commitPoints new s).1 i).changed = true := by
  rw [pointAt, commitPoints_points, List.getD_eq_getElem?_getD, getElem?_flagChanges hp hq, samePoint_eq_false h]
  rfl

/-! ### The request -/

theorem exec_changesClear_ready {s : State} {tag : Byte} (h : Ready s tag) (payload : List Byte) :
    exec (.changesClear tag payload) s = .next (changesClear tag payload (acceptRequest 49 tag s)) :=
  congrArg Host.Outcome.next (takeRequest_ready 49 tag (changesClear tag payload) s h)

theorem changesClear_badRange (tag first c1 c0 : Byte) (s : State)
    (h : u16 c1 c0 = 0 ∨ 256 < first.toNat + u16 c1 c0) :
    changesClear tag [first, c1, c0] s = replyBytes 49 tag .badArg [] s :=
  if_neg (by omega)

theorem changesClear_goodRange (tag first c1 c0 : Byte) (s : State) (h1 : 1 ≤ u16 c1 c0)
    (h2 : first.toNat + u16 c1 c0 ≤ 256) :
    changesClear tag [first, c1, c0] s =
      replyBytes 49 tag .ok (be16 (changedCount (pointRange s first.toNat (u16 c1 c0))))
        (clearFlags first.toNat (u16 c1 c0) s) :=
  if_pos ⟨h1, h2⟩

/-- The count in the reply is the range's as it stood before the request. -/
theorem changedCount_pointRange_acceptRequest (code tag : Byte) (first count : Nat) (s : State) :
    changedCount (pointRange (acceptRequest code tag s) first count) =
      (((s.points.drop first).take count).filter (·.changed)).length := rfl

/-- Accepting and answering a request changes the port only. -/
theorem replyBytes_acceptRequest_eq (code tag : Byte) (st : Status) (body : List Byte) (s : State) :
    replyBytes code tag st body (acceptRequest code tag s) =
      { s with port := (replyBytes code tag st body (acceptRequest code tag s)).port } := rfl

/-- Settles O33: a range outside the image is refused before the flags are reached; a good one clears them point by
point and leaves the rest to the reply; a later change set raises them again. -/
theorem changesClearWhole : Obligations.ChangesClearWhole := by
  refine ⟨fun s tag first c1 c0 hready hwhole => ⟨fun hbad => ?_, fun h1 h2 => ?_⟩, ?_⟩
  · rw [exec_changesClear_ready hready, changesClear_badRange _ _ _ _ _ hbad]
  · rw [exec_changesClear_ready hready, changesClear_goodRange _ _ _ _ _ h1 h2,
      changedCount_pointRange_acceptRequest, replyBytes_clearFlags_eq, replyBytes_acceptRequest_eq]
    refine ⟨_, rfl, rfl, rfl, ?_, fun i _ => ?_⟩
    · rw [length_points_clearFlags, acceptRequest_points]
      exact hwhole
    · exact pointAt_clearFlags _ _ i (acceptRequest 49 tag s)
  · intro s new i p q hp hq hmoved
    exact commitPoints_changed hp hq hmoved

end Sys2Proof.Proofs
end

section
/-! The states an evaluation computes from a group's corners: each corner's state by the table of R108, the lock
state (R109) and the landed state (R110) as the ordered tests of their lists. -/

namespace Sys2Proof.Proofs

open Sys2Proof Sys2Proof.Machine

/-! ### One corner (R108) -/

theorem isGood_iff (p : Point) : isGood p = true ↔ p.quality = .good := beq_iff_eq

theorem cornerState_of_not_good {locked unlocked : Point}
    (h : locked.quality ≠ .good ∨ unlocked.quality ≠ .good) : cornerState locked unlocked = .unknown :=
  if_neg (by rw [Bool.and_eq_true, isGood_iff, isGood_iff]; exact not_and_or.mpr h)

/-- The table of R108 without its first row: a contact is closed where its value is 1. -/
theorem cornerState_of_good {locked unlocked : Point} (hl : locked.quality = .good)
    (hu : unlocked.quality = .good) :
    cornerState locked unlocked =
      if locked.value = 1 then if unlocked.value = 1 then .conflict else .locked
      else if unlocked.value = 1 then .unlocked else .moving := by
  have hgood : (isGood locked && isGood unlocked) = true := by simp [isGood_iff, hl, hu]
  rw [cornerState, if_pos hgood]
  by_cases h1 : locked.value = 1 <;> by_cases h2 : unlocked.value = 1 <;> simp [h1, h2]

/-! ### The lock and landed states as ordered tests (R109, R110) -/

theorem lockState_corners (cs : List Corner) :
    lockState (cs.map (·.state)) =
      if ∃ c ∈ cs, c.state = .unknown then .unknown
      else if ∃ c ∈ cs, c.state = .conflict then .disagree
      else if ∀ c ∈ cs, c.state = .locked then .allLocked
      else if ∀ c ∈ cs, c.state = .unlocked then .allUnlocked
      else .transit := by
  simp [lockState]

/-- The third test alone gives ALL_LOCKED. -/
theorem lockState_eq_allLocked_iff (cs : List Corner) :
    lockState (cs.map (·.state)) = .allLocked ↔ ∀ c ∈ cs, c.state = .locked := by
  rw [lockState_corners]
  constructor
  · intro h
    by_contra hlocked
    simp only [if_neg hlocked] at h
    split_ifs at h
  · intro h
    have hno : ∀ x ≠ CornerState.locked, ¬∃ c ∈ cs, c.state = x :=
      fun x hx ⟨c, hc, hs⟩ => hx (hs.symm.trans (h c hc))
    rw [if_neg (hno _ (by decide)), if_neg (hno _ (by decide)), if_pos h]

theorem landedState_points (ps : List Point) :
    landedState ps =
      if ∃ p ∈ ps, p.quality ≠ .good then .unknown
      else if ∀ p ∈ ps, p.value = 1 then .allLanded
      else if ∀ p ∈ ps, p.value = 0 then .noneLanded
      else .partly := by
  simp [landedState, ← isGood_iff]

/-- PARTIAL takes two points: landed points of one common value, 0 or 1, are all landed or none. -/
theorem landedState_ne_partly {ps : List Point} {v : Int} (hv : v = 0 ∨ v = 1) (h : ∀ p ∈ ps, p.value = v) :
    landedState ps ≠ .partly := by
  rw [landedState_points]
  split_ifs with hbad hone hzero
  · decide
  · decide
  · decide
  · rcases hv with rfl | rfl
    · exact absurd h hzero
    · exact absurd h hone

/-! ### The record of an evaluation -/

theorem evalRecord_corners (s : State) (g : Group) :
    (evalRecord s g).corners = (s.groups.get g).corners.map (evalCorner s) := rfl

theorem evalRecord_lock (s : State) (g : Group) :
    (evalRecord s g).lock = lockState ((evalRecord s g).corners.map (·.state)) := rfl

theorem evalRecord_landed (s : State) (g : Group) :
    (evalRecord s g).landed = landedState ((s.groups.get g).corners.map (fun c => pointAt s c.landed)) := rfl

/-- R110's list read over the corners instead of their landed points. -/
theorem evalRecord_landed_tests (s : State) (g : Group) :
    (evalRecord s g).landed =
      if ∃ c ∈ (s.groups.get g).corners, (pointAt s c.landed).quality ≠ .good then .unknown
      else if ∀ c ∈ (s.groups.get g).corners, (pointAt s c.landed).value = 1 then .allLanded
      else if ∀ c ∈ (s.groups.get g).corners, (pointAt s c.landed).value = 0 then .noneLanded
      else .partly := by
  simp [evalRecord_landed, landedState_points]

/-- Settles O57: each clause is one row of R108's table, or one test of R109's or R110's list with the tests before
it failed. -/
theorem cornerLockAndLandedStates : Obligations.CornerLockAndLandedStates := by
  rintro s g _ _ rfl rfl
  refine ⟨evalRecord_corners s g, fun locked unlocked => ⟨cornerState_of_not_good, fun hl hu => ?table⟩,
    ?lockUnknown, ?lockKnown, ?allLocked, ?landedUnknown, ?landedKnown, ?onePoint⟩
  case table =>
    rw [cornerState_of_good hl hu]
    refine ⟨?_, ?_, ?_, ?_⟩ <;> intro h1 h2 <;> simp [h1, h2]
  case lockUnknown =>
    intro hunknown
    rw [evalRecord_lock, lockState_corners, if_pos hunknown]
  case lockKnown =>
    intro hknown
    rw [evalRecord_lock, lockState_corners, if_neg (by simpa using hknown)]
    refine ⟨fun hconflict => if_pos hconflict, fun hsound => ?_⟩
    rw [if_neg (by simpa using hsound)]
    refine ⟨fun hlocked => if_pos hlocked, fun hnot => ?_⟩
    rw [if_neg (by simpa using hnot)]
    exact ⟨fun hunlocked => if_pos hunlocked, fun hmixed => if_neg (by simpa using hmixed)⟩
  case allLocked => exact (lockState_eq_allLocked_iff _).mp
  case landedUnknown =>
    intro hbad
    rw [evalRecord_landed_tests, if_pos hbad]
  case landedKnown =>
    intro hgood
    rw [evalRecord_landed_tests, if_neg (by simpa using hgood)]
    refine ⟨fun hlanded => if_pos hlanded, fun hnot => ?_⟩
    rw [if_neg (by simpa using hnot)]
    exact ⟨fun hnone => if_pos hnone, fun hmixed => if_neg (by simpa using hmixed)⟩
  case onePoint =>
    intro i hi hv
    rw [evalRecord_landed]
    refine landedState_ne_partly hv (List.forall_mem_map.mpr fun c hc => ?_)
    rw [hi c hc]

end Sys2Proof.Proofs
end

section
/-! RESULT_TAKE (R158): the take empties the REMOTE slot of its group and touches no other block; what a slot holds
once a result is given to it (R157). -/

namespace Sys2Proof.Proofs

open Sys2Proof Sys2Proof.Machine Sys2Proof.Safety Sys2Proof.Laws

/-! ### A slot's content after a result (R157) -/

@[simp] theorem slotAfter_none (new : OpResult) : slotAfter none new = new := rfl

/-- A failure is kept against a DONE; every other content gives way to the new result. -/
theorem slotAfter_some (held new : OpResult) :
    slotAfter (some held) new = if isFailure held = true ∧ isFailure new = false then held else new := by
  simp [slotAfter]

theorem storeResult_slot (g : Group) (src : Source) (r : OpResult) (s : State) :
    ((storeResult g src r s).results.get g).get src = some (slotAfter ((s.results.get g).get src) r) := by
  rw [storeResult_results, ByGroup.get_set_self, BySource.get_set_self]

/-! ### The request -/

@[simp] theorem groupPayload_groupCode (g : Group) : groupPayload [groupCode g] = some g := by
  cases g <;> rfl

/-- The REMOTE slot is emptied and the CAB slot stands; no other block is told. -/
theorem takeResult_remote (g : Group) (s : State) :
    takeResult g .remote s = { s with results := s.results.set g ⟨(s.results.get g).cab, none⟩ } := rfl

theorem resultTake_badPayload (tag : Byte) (payload : List Byte) (s : State) (h : groupPayload payload = none) :
    resultTake tag payload s = replyBytes 70 tag .badArg [] s := by
  rw [resultTake, h]

/-- The content in the reply is the slot's as it stood before the take. -/
theorem resultTake_group (tag : Byte) (payload : List Byte) (g : Group) (s : State)
    (h : groupPayload payload = some g) :
    resultTake tag payload s =
      replyBytes 70 tag .ok (resultBytes ((s.results.get g).get .remote)) (takeResult g .remote s) := by
  rw [resultTake, h]

/-- No test of the mode in effect stands between the port and the take. -/
theorem exec_resultTake_ready {s : State} {tag : Byte} (h : Ready s tag) (payload : List Byte) :
    exec (.resultTake tag payload) s = .next (resultTake tag payload (acceptRequest 70 tag s)) :=
  congrArg Host.Outcome.next (takeRequest_ready 70 tag (resultTake tag payload) s h)

/-- Settles O55: the payload decides between the refusal and the take; the two clauses about a given result are the
empty slot and the whole table of R157, read off `slotAfter`. -/
theorem resultTakeWhole : Obligations.ResultTakeWhole := by
  refine ⟨fun s tag payload hready hbad => ?refused, fun s tag g hready => ?taken,
    fun s g r hempty => ?stored, fun s g r => ?retained⟩
  case refused => rw [exec_resultTake_ready hready, resultTake_badPayload _ _ _ hbad]
  case taken =>
    rw [exec_resultTake_ready hready, resultTake_group _ _ g _ (groupPayload_groupCode g), takeResult_remote,
      acceptRequest_results]
  case stored => rw [storeResult_slot, hempty, slotAfter_none]
  case retained =>
    rw [storeResult_slot]
    cases (s.results.get g).get .remote with
    | none => rw [slotAfter_none]
    | some held => rw [slotAfter_some]

end Sys2Proof.Proofs
end

section
/-! The invariants that every step keeps (R43, R61, R116, R117, R125, R157, R184, R188), and the queue that no
command touches: each is closed under the updates commands are made of. What the port, the mode and the lamp lines
hold concerns the port's limits alone, so the closure of the others is put together once (`closed_of_link`). -/

namespace Sys2Proof.Proofs

open Sys2Proof Sys2Proof.Machine Sys2Proof.Safety Sys2Proof.Laws

/-! ### Closure of what overlooks the port -/

/-- What the new store holds was in the old one, or is the table in use: no image comes from nowhere (R204, R205). -/
def StoredFrom (s : State) (v : Store) : Prop :=
  (∀ i, v.image = some i → s.store.image = some i ∨ ∃ w, s.store.save = some w ∧ w.snapshot = i) ∧
    (∀ w, v.save = some w → s.store.save = some w ∨ w.snapshot.profiles = s.profiles)

theorem storedFrom_working (w : Settings) (s : State) : StoredFrom s { s.store with working := w } :=
  ⟨fun _ => .inl, fun _ => .inl⟩

theorem storedFrom_cutOff (s : State) : StoredFrom s { s.store with image := imageAtLoad s.store, save := none } := by
  refine ⟨fun i hi => .inl ?_, nofun⟩
  simp only [imageAtLoad] at hi
  split at hi
  · exact nomatch hi
  · exact hi

/-- A predicate that overlooks the port, the mode, the lamp lines and the transfers is closed once it is closed under
the updates of the lines and of the store, the fall of the RESET pin and a reset. -/
theorem closed_of_link {P : State → Prop} (hlink : Link P) (hport : ∀ p s, P s → P { s with port := p })
    (hhub : ∀ x s, P s → P { s with hub := x }) (hlamps : ∀ x s, P s → P { s with lampLines := x })
    (hstation : ∀ k f s, P s → P (updStation k f s))
    (hstore : ∀ v s, StoredFrom s v → P s → P { s with store := v })
    (hprofiles : ∀ ps s, (TableSorted s.profiles → TableSorted ps) → P s → P { s with profiles := ps })
    (hfall : ∀ s, P s → P (resetPinFall s)) (hreset : ∀ a b c s, P s → P (resetHub a b c s)) : Closed P P where
  toLink := hlink
  reply _ _ _ _ _ := hport _ _
  roomLink := hlink
  unchange _ _ _ := hhub _ _
  timeTo := hlink.time
  portRest _ _ _ _ := hport _ _
  roomTimed := ⟨hlink.toInner, hlink.time, fun _ _ _ _ => hport _ _⟩
  accept _ _ _ _ _ := hport _ _
  uncounted _ _ _ _ h := uncountedReply_eq .. ▸ hport _ _ h
  lamps := hlamps
  roomLamps := hlamps
  working _ _ := hstore _ _ (storedFrom_working _ _)
  change _ _ _ := hhub _ _
  transfer _ _ _ _ := hstation _ _ _
  save _ _ _ := hstore _ _ ⟨fun _ => .inl, fun _ hw => .inr (by cases hw; rfl)⟩
  written v s hv := hstore _ _ ⟨fun i hi => .inr ⟨v, hv, by simpa using hi⟩, nofun⟩
  unwritten _ _ := hstore _ _ ⟨nofun, nofun⟩
  drop s h := hstore _ { s with hub := { s.hub with change := none } } (storedFrom_cutOff s) (hhub _ _ h)
  profiles := hprofiles
  begun _ := hport _ _
  sent _ := hport _ _
  fall := hfall
  reset := hreset

/-- Two states that agree in what the interlock, the ownership block and the result slots hold. -/
structure SameControl (s t : State) : Prop where
  held : t.held = s.held
  groups : t.groups = s.groups
  permitPins : t.permitPins = s.permitPins
  owners : t.owners = s.owners
  results : t.results = s.results

theorem sameControl_notice (kind : NoticeKind) (payload : List Byte) (s : State) :
    SameControl s (notice kind payload s) := by
  constructor <;> simp

theorem sameControl_endTransfer (k : Stn) (st : Status) (body : List Byte) (s : State) :
    SameControl s (endTransfer k st body s) := by
  unfold endTransfer
  split <;> exact ⟨rfl, rfl, rfl, rfl, rfl⟩

/-- A predicate on groups, owners and results is closed once it is closed under their own updates. -/
theorem closed_of_control {P : State → Prop} (hsame : ∀ s t, SameControl s t → P s → P t)
    (hpermit : ∀ g r s, RecordSafe r → P s →
      P { updGroup g (fun _ => r) s with permitPins := s.permitPins.set g r.permit })
    (huntrip : ∀ g s, P s → P (updGroup g (fun r => { r with trip := false }) s))
    (hresult : ∀ g src r s,
      (src = .remote → (∀ q st, r ≠ some (.refused q st)) ∨ r = (s.results.get g).get src) →
      P s → P (setResult g src r s))
    (hunmark : ∀ g src s, P s → P (updOwner g (fun r => { r with marks := r.marks.set src none }) s))
    (hmark : ∀ g src e s, P s →
      P (updOwner g (fun r => { r with marks := r.marks.set src (some ⟨r.generation, e⟩) }) s))
    (howner : ∀ g new s, P s → P (updOwner g (fun r => ⟨new, r.generation + 1, ⟨none, none⟩⟩) s))
    (hfall : ∀ s, P s → P (resetPinFall s)) (hreset : ∀ a b c s, P s → P (resetHub a b c s)) : Closed P P := by
  have same : ∀ {s t : State}, t.held = s.held → t.groups = s.groups → t.permitPins = s.permitPins →
      t.owners = s.owners → t.results = s.results → P s → P t :=
    fun h1 h2 h3 h4 h5 => hsame _ _ ⟨h1, h2, h3, h4, h5⟩
  refine closed_of_link ?link (fun _ _ => same rfl rfl rfl rfl rfl) (fun _ _ => same rfl rfl rfl rfl rfl)
    (fun _ _ => same rfl rfl rfl rfl rfl) (fun _ _ _ => same rfl rfl rfl rfl rfl)
    (fun _ _ _ => same rfl rfl rfl rfl rfl) (fun _ _ _ => same rfl rfl rfl rfl rfl) hfall hreset
  exact
    { points := fun _ _ _ => same rfl rfl rfl rfl rfl
      out := fun _ _ _ _ => same rfl rfl rfl rfl rfl
      notice := fun _ _ _ => hsame _ _ (sameControl_notice _ _ _)
      cab := fun _ _ => same rfl rfl rfl rfl rfl
      permit := hpermit
      untrip := huntrip
      op := fun _ _ _ => same rfl rfl rfl rfl rfl
      result := hresult
      unmark := hunmark
      mark := hmark
      owner := howner
      line := fun _ _ _ => same rfl rfl rfl rfl rfl
      outAny := fun _ _ _ => same rfl rfl rfl rfl rfl
      sampled := fun _ _ _ => same rfl rfl rfl rfl rfl
      station := fun _ _ _ _ => same rfl rfl rfl rfl rfl
      settle := fun _ _ _ _ => hsame _ _ (sameControl_endTransfer _ _ _ _)
      stale := fun _ _ => same rfl rfl rfl rfl rfl
      raw := fun _ _ => same rfl rfl rfl rfl rfl
      choices := fun _ _ => same rfl rfl rfl rfl rfl
      time := fun _ _ => same rfl rfl rfl rfl rfl }

/-! ### The permit (R116, R117) -/

/-- Every record stays safe where one group takes a safe record. -/
theorem recordSafe_set {x : ByGroup GroupRec} {g : Group} {r : GroupRec} (hr : RecordSafe r)
    (hx : ∀ i, RecordSafe (x.get i)) (i : Group) : RecordSafe ((x.set g r).get i) := by
  rw [ByGroup.get_set]
  split
  · exact hr
  · exact hx i

theorem recordSafe_untrip {r : GroupRec} (hr : RecordSafe r) : RecordSafe { r with trip := false } := by
  intro hon
  obtain ⟨hbound, hlock, hlanded, -⟩ := hr hon
  exact ⟨hbound, hlock, hlanded, rfl⟩

theorem permitSafe_untrip (g : Group) (s : State) (h : PermitSafe s) :
    PermitSafe (updGroup g (fun r => { r with trip := false }) s) := by
  obtain ⟨hpins, hsafe⟩ := h
  refine ⟨fun hheld i => ?_, recordSafe_set (recordSafe_untrip (hsafe g)) hsafe⟩
  rw [updGroup_permitPins, hpins hheld i, updGroup_groups, ByGroup.get_set]
  split
  · rename_i hi
    rw [hi]
  · rfl

theorem permitSafe_permit (g : Group) (r : GroupRec) (s : State) (hr : RecordSafe r) (h : PermitSafe s) :
    PermitSafe { updGroup g (fun _ => r) s with permitPins := s.permitPins.set g r.permit } := by
  obtain ⟨hpins, hsafe⟩ := h
  refine ⟨fun hheld i => ?_, recordSafe_set hr hsafe⟩
  simp only [updGroup_groups, ByGroup.get_set]
  split
  · rfl
  · exact hpins hheld i

theorem resetPinFall_held (s : State) : (resetPinFall s).held = true := by
  unfold resetPinFall
  split
  · assumption
  · rfl

theorem resetPinFall_groups (s : State) : (resetPinFall s).groups = s.groups := by
  unfold resetPinFall
  split <;> rfl

theorem permitSafe_closed : Closed PermitSafe PermitSafe := by
  refine closed_of_control (fun s t he h => ?same) permitSafe_permit permitSafe_untrip (fun _ _ _ _ _ h => h)
    (fun _ _ _ h => h) (fun _ _ _ _ h => h) (fun _ _ _ h => h) (fun s h => ?fall) (fun _ _ _ _ _ => ?reset)
  case same => simpa only [PermitSafe, he.held, he.groups, he.permitPins] using h
  case fall =>
    refine ⟨fun hheld => ?_, fun g => ?_⟩
    · rw [resetPinFall_held] at hheld
      exact nomatch hheld
    · rw [resetPinFall_groups]
      exact h.2 g
  case reset => exact ⟨fun _ g => by cases g <;> rfl, fun g => by cases g <;> exact unbound_safe⟩

/-- Settles O6. -/
theorem stepKeepsPermitSafe : Obligations.StepKeepsPermitSafe :=
  fun s t => step_keeps permitSafe_closed (fun _ _ h => h) s t

/-! ### Claim marks (R123, R125) -/

/-- One group's part of `MarksCurrent`. -/
def Current (r : OwnerRec) : Prop := ∀ src m, r.marks.get src = some m → m.generation = r.generation

theorem marksCurrent_iff (s : State) : MarksCurrent s ↔ ∀ g, Current (s.owners.get g) := Iff.rfl

theorem current_noMarks (o : Owner) (n : Word) : Current ⟨o, n, ⟨none, none⟩⟩ := by
  intro src m h
  cases src <;> exact nomatch h

theorem current_setMark {r : OwnerRec} {src : Source} {x : Option Mark} (hr : Current r)
    (hx : ∀ m, x = some m → m.generation = r.generation) : Current { r with marks := r.marks.set src x } := by
  intro i m h
  rw [BySource.get_set] at h
  split at h
  · exact hx m h
  · exact hr i m h

theorem marksCurrent_updOwner (g : Group) (f : OwnerRec → OwnerRec) (s : State) (hf : ∀ r, Current r → Current (f r))
    (h : MarksCurrent s) : MarksCurrent (updOwner g f s) := by
  rw [marksCurrent_iff] at h ⊢
  intro i
  rw [updOwner_owners, ByGroup.get_set]
  split
  · exact hf _ (h g)
  · exact h i

theorem marksCurrent_closed : Closed MarksCurrent MarksCurrent := by
  refine closed_of_control (fun s t he h => ?same) (fun _ _ _ _ h => h) (fun _ _ h => h) (fun _ _ _ _ _ h => h)
    (fun g src s => ?unmark) (fun g src e s => ?mark) (fun g new s => ?owner) (fun s h => ?fall)
    (fun _ _ _ _ _ => ?reset)
  case same => simpa only [MarksCurrent, he.owners] using h
  case unmark => exact marksCurrent_updOwner _ _ _ (fun _ hr => current_setMark hr nofun)
  case mark => exact marksCurrent_updOwner _ _ _ (fun _ hr => current_setMark hr (fun m hm => by cases hm; rfl))
  case owner => exact marksCurrent_updOwner _ _ _ (fun _ _ => current_noMarks _ _)
  case fall =>
    unfold resetPinFall
    split <;> exact h
  case reset => exact (marksCurrent_iff _).2 (fun g => by cases g <;> exact current_noMarks _ _)

/-- Settles O7. -/
theorem stepKeepsMarksCurrent : Obligations.StepKeepsMarksCurrent :=
  fun s t => step_keeps marksCurrent_closed (fun _ _ h => h) s t

/-! ### The port's limits (R184, R188) -/

theorem owing_accept (code tag : Byte) (s : State) (htag : tagHeld tag s = false) (hroom : s.port.table.length < 8)
    (h : Owing 0 s) : Owing 1 (enterTable code tag s) := by
  obtain ⟨-, huncounted, hnotices, htags, howed⟩ := h
  have hnew : tag ∉ s.port.table.map (·.tag) := by simpa [tagHeld] using htag
  refine ⟨?_, huncounted, hnotices, ?_, ?_⟩
  · simpa [enterTable] using hroom
  · simpa [enterTable, List.nodup_append, htags] using hnew
  · have howed' : owedReplies (enterTable code tag s) = owedReplies s := rfl
    rw [howed']
    simp [enterTable]
    omega

theorem owing_uncounted (code tag : Byte) (st : Status) (s : State) (h : Owing 0 s) :
    Owing 0 (uncountedReply code tag st s) := by
  unfold uncountedReply
  split
  · exact owing_of rfl rfl rfl h
  · rename_i hroom
    obtain ⟨htable, huncounted, hnotices, htags, howed⟩ := h
    simp only [uncountedLimit] at hroom
    refine ⟨htable, ?_, ?_, htags, ?_⟩ <;>
      simp [countSort, pushMessage, updPort, owedReplies] at * <;> omega

/-- A transfer, a mode change or a save that is taken up owes the reply that its request could have made. -/
theorem owing_owes {s t : State} (hport : t.port = s.port) (howed : owedReplies t = owedReplies s + 1)
    (h : Owing 1 s) : Owing 0 t := by
  obtain ⟨htable, huncounted, hnotices, htags, hreplies⟩ := h
  rw [Owing, hport, howed]
  exact ⟨htable, huncounted, hnotices, htags, by omega⟩

theorem owing_pays {s t : State} (hport : t.port = s.port) (howed : owedReplies s = owedReplies t + 1)
    (h : Owing 0 s) : Owing 1 t := by
  obtain ⟨htable, huncounted, hnotices, htags, hreplies⟩ := h
  rw [Owing, hport]
  exact ⟨htable, huncounted, hnotices, htags, by omega⟩

theorem owed_transfer (k : Stn) (x : Transfer) (s : State) (h : (s.stations.get k).transfer = none) :
    owedReplies (updStation k (fun r => { r with transfer := some x }) s) = owedReplies s + 1 := by
  have same : updStation k (fun r => { r with transfer := none })
      (updStation k (fun r => { r with transfer := some x }) s) = s := by
    have hrec : { s.stations.get k with transfer := none } = s.stations.get k := by rw [← h]
    simp only [updStation, ByStn.get_set_self, ByStn.set_set]
    rw [hrec, ByStn.set_get]
  rw [owed_settled k (fun r => { r with transfer := none })
    (updStation k (fun r => { r with transfer := some x }) s) (by simp) rfl, same]

theorem owing_fall (s : State) (h : Owing 0 s) : Owing 0 (resetPinFall s) := by
  unfold resetPinFall
  split
  · exact h
  · obtain ⟨htable, huncounted, hnotices, htags, hreplies⟩ := h
    refine ⟨htable, huncounted, hnotices, htags, ?_⟩
    simp [owedReplies] at hreplies ⊢
    omega

theorem owing_reset (a : Bool) (b : BitVec 2) (c : Byte) (s : State) : Owing 0 (resetHub a b c s) := by
  have hfifo : (resetHub a b c s).port.fifo = [] ∨ (resetHub a b c s).port.fifo = [storeInvalidMessage] := by
    simp only [resetHub, portAtReset]
    split <;> simp
  refine ⟨by simp [resetHub, portAtReset], ?_, ?_, by simp [resetHub, portAtReset], ?_⟩
  · rcases hfifo with h | h <;> rw [h] <;> decide
  · rcases hfifo with h | h <;> rw [h] <;> decide
  · have howed : owedReplies (resetHub a b c s) = 0 := rfl
    rw [howed]
    rcases hfifo with h | h <;> rw [h] <;> simp [countSort, storeInvalidMessage]

theorem owing_closed : Closed (Owing 0) (Owing 1) where
  toLink := owing_link 0
  reply := owing_reply
  roomLink := owing_link 1
  unchange m s hc := owing_pays rfl (by simp [owedReplies, hc]; omega)
  timeTo _ _ h := h
  portRest := (owing_timed 0).portRest
  roomTimed := owing_timed 1
  accept := owing_accept
  uncounted := owing_uncounted
  lamps _ _ h := h
  roomLamps _ _ h := h
  working _ _ h := h
  change c s hn := owing_owes rfl (by simp [owedReplies, hn]; omega)
  transfer k x s hn := owing_owes rfl (owed_transfer k x s hn)
  save tag s hn := owing_owes rfl (by simp [owedReplies, hn])
  written v s hv := owing_pays rfl (by simp [owedReplies, hv])
  unwritten s hv := owing_pays rfl (by simp [owedReplies, hv])
  drop := owing_drop
  profiles _ _ _ h := h
  begun := owing_begun
  sent := owing_sent
  fall := owing_fall
  reset a b c s _ := owing_reset a b c s

/-- Settles O8: room for one more reply is what a request gains with its entry in the table. -/
theorem stepKeepsPortLimits : Obligations.StepKeepsPortLimits := by
  intro s t h hstep
  rw [owing_iff] at h ⊢
  exact step_keeps owing_closed (fun _ _ h => h) s t h hstep

/-! ### Tables, image and REMOTE slots (R43, R61, R157) -/

theorem profilesSound_store (v : Store) (s : State) (hv : StoredFrom s v) (h : ProfilesSound s) :
    ProfilesSound { s with store := v } := by
  obtain ⟨htable, himage, hsave⟩ := h
  refine ⟨htable, fun i hi => ?_, fun w hw => ?_⟩
  · rcases hv.1 i hi with hold | ⟨w, hw, rfl⟩
    · exact himage i hold
    · exact hsave w hw
  · rcases hv.2 w hw with hold | htaken
    · exact hsave w hold
    · exact htaken ▸ htable

theorem tableSorted_nil : TableSorted [] := ⟨by simp, .nil⟩

/-- Two states that agree in the settings store, the profile table, the size of the image and the queue. -/
structure SameStore (s t : State) : Prop where
  profiles : t.profiles = s.profiles
  store : t.store = s.store
  length : t.points.length = s.points.length
  pending : t.pending = s.pending

theorem sameStore_endTransfer (k : Stn) (st : Status) (body : List Byte) (s : State) :
    SameStore s (endTransfer k st body s) := by
  unfold endTransfer
  split <;> exact ⟨rfl, rfl, rfl, rfl⟩

/-- A predicate on the store, the profile table, the image's size and the queue is closed once it is closed under the
updates of the store and the table, the fall of the RESET pin and a reset. -/
theorem closed_of_store {P : State → Prop} (hsame : ∀ s t, SameStore s t → P s → P t)
    (hstore : ∀ v s, StoredFrom s v → P s → P { s with store := v })
    (hprofiles : ∀ ps s, (TableSorted s.profiles → TableSorted ps) → P s → P { s with profiles := ps })
    (hreset : ∀ a b c s, P s → P (resetHub a b c s)) : Closed P P := by
  have same : ∀ {s t : State}, t.profiles = s.profiles → t.store = s.store →
      t.points.length = s.points.length → t.pending = s.pending → P s → P t :=
    fun h1 h2 h3 h4 => hsame _ _ ⟨h1, h2, h3, h4⟩
  refine closed_of_link ?link (fun _ _ => same rfl rfl rfl rfl) (fun _ _ => same rfl rfl rfl rfl)
    (fun _ _ => same rfl rfl rfl rfl) (fun _ _ _ => same rfl rfl rfl rfl) hstore hprofiles (fun s h => ?fall) hreset
  case fall =>
    unfold resetPinFall
    split
    · exact h
    · exact same (s := { s with store := { s.store with image := imageAtLoad s.store, save := none } })
        rfl rfl rfl rfl (hstore _ s (storedFrom_cutOff s) h)
  exact
    { points := fun _ _ hquiet => same rfl rfl hquiet.length rfl
      out := fun _ _ _ _ => same rfl rfl rfl rfl
      notice := fun _ _ _ => same (by simp) (by simp) (by simp) (by simp)
      cab := fun _ _ => same rfl rfl rfl rfl
      permit := fun _ _ _ _ => same rfl rfl rfl rfl
      untrip := fun _ _ => same rfl rfl rfl rfl
      op := fun _ _ _ => same rfl rfl rfl rfl
      result := fun _ _ _ _ _ => same rfl rfl rfl rfl
      unmark := fun _ _ _ => same rfl rfl rfl rfl
      mark := fun _ _ _ _ => same rfl rfl rfl rfl
      owner := fun _ _ _ => same rfl rfl rfl rfl
      line := fun _ _ _ => same rfl rfl rfl rfl
      outAny := fun _ _ _ => same rfl rfl rfl rfl
      sampled := fun _ _ hlength => same rfl rfl hlength rfl
      station := fun _ _ _ _ => same rfl rfl rfl rfl
      settle := fun _ _ _ _ => hsame _ _ (sameStore_endTransfer _ _ _ _)
      stale := fun _ _ => same rfl rfl rfl rfl
      raw := fun _ _ => same rfl rfl rfl rfl
      choices := fun _ _ => same rfl rfl rfl rfl
      time := fun _ _ => same rfl rfl rfl rfl }

theorem profilesSound_reset (a : Bool) (b : BitVec 2) (c : Byte) (s : State) (h : ProfilesSound s) :
    ProfilesSound (resetHub a b c s) := by
  have hload := (profilesSound_store _ s (storedFrom_cutOff s) h).2.1
  refine ⟨?_, hload, nofun⟩
  show TableSorted (loadImage (imageAtLoad s.store)).profiles
  cases hi : imageAtLoad s.store with
  | none => exact tableSorted_nil
  | some i => exact hload i hi

theorem profilesSound_closed : Closed ProfilesSound ProfilesSound := by
  refine closed_of_store (fun s t he h => ?_) profilesSound_store (fun ps s hps h => ?_) profilesSound_reset
  · simpa only [ProfilesSound, he.profiles, he.store] using h
  · exact ⟨hps h.1, h.2⟩

theorem length_imageAtReset (lin : Byte) : (Point.imageAtReset lin).length = 256 := by
  rw [Point.imageAtReset, List.length_append, List.length_replicate]
  rfl

theorem imageWhole_closed : Closed ImageWhole ImageWhole :=
  closed_of_store (fun _ _ he h => he.length.trans h) (fun _ _ _ h => h) (fun _ _ _ h => h)
    (fun _ _ _ _ _ => length_imageAtReset _)

theorem remoteSlots_result (g : Group) (src : Source) (r : Option OpResult) (s : State)
    (hr : src = .remote → (∀ q st, r ≠ some (.refused q st)) ∨ r = (s.results.get g).get src)
    (h : RemoteSlotsSound s) : RemoteSlotsSound (setResult g src r s) := by
  intro i q st
  rw [setResult_results, ByGroup.get_set]
  split
  · cases src with
    | cab => exact h g q st
    | remote =>
      rcases hr rfl with hnew | hold
      · exact hnew q st
      · exact hold ▸ h g q st
  · exact h i q st

theorem remoteSlots_closed : Closed RemoteSlotsSound RemoteSlotsSound := by
  refine closed_of_control (fun s t he h => ?_) (fun _ _ _ _ h => h) (fun _ _ h => h) remoteSlots_result
    (fun _ _ _ h => h) (fun _ _ _ _ h => h) (fun _ _ _ h => h) (fun s h => ?_) (fun _ _ _ _ _ g q st => ?_)
  · simpa only [RemoteSlotsSound, he.results] using h
  · unfold resetPinFall
    split <;> exact h
  · cases g <;> exact nofun

/-- Settles O9: three closed predicates. -/
theorem stepKeepsTablesSound : Obligations.StepKeepsTablesSound :=
  ⟨fun s t => step_keeps profilesSound_closed (fun _ _ h => h) s t,
    fun s t => step_keeps imageWhole_closed (fun _ _ h => h) s t,
    fun s t => step_keeps remoteSlots_closed (fun _ _ h => h) s t⟩

/-! ### The queue, and the reset state -/

theorem pending_closed (q : List Instr) : Closed (fun t => t.pending = q) (fun t => t.pending = q) :=
  closed_of_store (fun _ _ he h => he.pending.trans h) (fun _ _ _ h => h) (fun _ _ _ h => h) (fun _ _ _ _ h => h)

/-- Settles O2. -/
theorem commandsLeaveQueueAlone : Obligations.CommandsLeaveQueueAlone :=
  fun c s t => exec_keeps (pending_closed s.pending) c s t rfl

theorem whileSending_of_held {f : HostPort → HostPort} {s : State} (h : s.held = true) : whileSending f s = s := by
  simp [whileSending, portSends, h]

/-- A port with nothing to send, or whose clock is the host's, rests. -/
theorem idlePort_rests {s : State} (h : s.held = true ∨ s.port.kind = .spi ∨ s.port.fifo = []) : idlePort s = s := by
  unfold idlePort
  split
  · rename_i hkind
    rcases h with hheld | hspi | hempty
    · exact whileSending_of_held hheld
    · rw [hkind] at hspi
      exact nomatch hspi
    · simp [whileSending, updPort, sendByte, hempty]
  · rfl

/-- Settles O1. -/
theorem stepRunsFrontCommand : Obligations.StepRunsFrontCommand := by
  refine ⟨fun c rest s h => ?_, fun s h hidle => ?_⟩
  · rw [step, h]
  · rw [step, h, idlePort_rests hidle]

/-- Settles O5. -/
theorem resetKeepsPromises : Obligations.ResetKeepsPromises := by
  refine ⟨⟨fun _ g => ?_, fun g => ?_⟩, (marksCurrent_iff _).2 fun g => ?_, ?_,
    length_imageAtReset 0, fun g q st => ?_,
    tableSorted_nil, nofun, nofun⟩
  · cases g <;> rfl
  · cases g <;> exact unbound_safe
  · cases g <;> exact current_noMarks _ _
  · refine ⟨?_, ?_, ?_, ?_, ?_, ?_⟩ <;> decide
  · cases g <;> exact nofun

end Sys2Proof.Proofs
end

section
/-! Requests at the host port (R183, R184, R191, R192): every handler of the catalogue asks the port first, a request
that is taken stands in the table behind the others, and nothing it then does touches the table or the silence timer
but SETTINGS_SET, which starts the timer anew with the timeout it sets. -/

namespace Sys2Proof.Proofs

open Sys2Proof Sys2Proof.Machine Sys2Proof.Safety Sys2Proof.Laws

/-! ### What the requests on points and outputs do behind the port's checks -/

section PointHandlers

variable {Q : State → Prop} (h : Answered Q Q)

include h

theorem rawWrite_handles (hi : Image Q) (tag : Byte) (pl : List Byte) (s : State) (hs : Q s) :
    Q (rawWrite tag pl s) := by
  unfold rawWrite
  split
  · exact h.reply _ _ _ _ _ hs
  · split
    · exact h.reply _ _ _ _ _ hs
    · split
      · exact h.reply _ _ _ _ _ hs
      · split
        · exact h.reply _ _ _ _ _ hs
        · split
          · exact h.reply _ _ _ _ _ hs
          · have hentered := enterWrite_keeps hi
            dsimp only
            refine h.reply _ _ _ _ _ ?_
            split
            · exact hi.out _ _ _ (putEntry_lastEcho _) (hentered _ _ _ _ hs)
            · exact hentered _ _ _ _ hs

theorem pointsRead_handles (hpoints : ∀ s pts, pts.length = s.points.length → Q s → Q { s with points := pts })
    (tag : Byte) (pl : List Byte) (s : State) (hs : Q s) : Q (pointsRead tag pl s) := by
  unfold pointsRead
  split
  · dsimp only
    split
    · refine h.reply _ _ _ _ _ ?_
      split
      · exact hpoints _ _ (length_mapWindow _ _ _ _) hs
      · exact hs
    · exact h.reply _ _ _ _ _ hs
  · exact h.reply _ _ _ _ _ hs

theorem changesClear_handles (hpoints : ∀ s pts, pts.length = s.points.length → Q s → Q { s with points := pts })
    (tag : Byte) (pl : List Byte) (s : State) (hs : Q s) :
    Q (changesClear tag pl s) := by
  unfold changesClear
  split
  · dsimp only
    split
    · exact h.reply _ _ _ _ _ (hpoints _ _ (length_mapWindow _ _ _ _) hs)
    · exact h.reply _ _ _ _ _ hs
  · exact h.reply _ _ _ _ _ hs

theorem pointNotify_handles (hpoints : ∀ s pts, pts.length = s.points.length → Q s → Q { s with points := pts })
    (tag : Byte) (pl : List Byte) (s : State) (hs : Q s) :
    Q (pointNotify tag pl s) := by
  unfold pointNotify
  split
  · split
    · exact h.reply _ _ _ _ _ hs
    · dsimp only
      split
      · exact h.reply _ _ _ _ _ hs
      · exact h.reply _ _ _ _ _ (hpoints _ _ (length_setPoint _ _ _) hs)
  · exact h.reply _ _ _ _ _ hs

theorem pointWrite_handles (hi : Image Q) (hlamps : ∀ x s, Q s → Q { s with lampLines := x })
    (tag : Byte) (pl : List Byte) (s : State) (hs : Q s) : Q (pointWrite tag pl s) := by
  unfold pointWrite
  split
  · dsimp only
    split
    · exact h.reply _ _ _ _ _ hs
    · exact h.reply _ _ _ _ _ (setLampLine_keeps hi hlamps _ _ _ hs)
    · exact h.reply _ _ _ _ _ (enterWrite_keeps hi _ _ _ _ hs)
  · exact h.reply _ _ _ _ _ hs

theorem pointFence_handles (hout : ∀ k f s, Q s → Q (updOut k f s)) (tag : Byte) (pl : List Byte) (s : State)
    (hs : Q s) : Q (pointFence tag pl s) := by
  unfold pointFence
  split
  · exact h.reply _ _ _ _ _ hs
  · dsimp only
    split
    · exact h.reply _ _ _ _ _ hs
    · split
      · exact h.reply _ _ _ _ _ hs
      · split
        · exact h.reply _ _ _ _ _ hs
        · exact h.reply _ _ _ _ _ (hout _ _ _ hs)

end PointHandlers

/-! ### What the handlers do behind the port's checks -/

/-- Closed under what the owning block of any request does, at time `n`, after the port has taken it. -/
structure Handling (n : Nat) (Q : State → Prop) : Prop extends Torn Q Q where
  lamps : ∀ x s, Q s → Q { s with lampLines := x }
  change : ∀ x s, Q s → Q { s with hub := x }
  transfer : ∀ k f s, Q s → Q (updStation k f s)
  stored : ∀ v s, v.working = s.store.working → Q s → Q { s with store := v }
  profiles : ∀ ps s, Q s → Q { s with profiles := ps }
  cleared : ∀ s, Q s → Q (clearCounters s)
  closes : ∀ x s, Q s → Q (updPort (fun p => { p with resetBy := x }) s)
  settings : ∀ v x s, s.now = n → Q s → Q (restartSilence { s with store := v, lines := x })

section Handlers

variable {n : Nat} {Q : State → Prop} (h : Handling n Q)

include h

theorem hubStatus_handles (tag : Byte) (pl : List Byte) (s : State) (hs : Q s) : Q (hubStatus tag pl s) := by
  unfold hubStatus
  split
  · split
    · exact h.reply _ _ _ _ _ hs
    · refine h.reply _ _ _ _ _ ?_
      split
      · exact h.cleared _ hs
      · exact hs
  · exact h.reply _ _ _ _ _ hs

theorem hubReset_handles (tag : Byte) (pl : List Byte) (s : State) (hs : Q s) : Q (hubReset tag pl s) := by
  unfold hubReset
  split
  · have hd : Q (dropTimedWork s) :=
      h.stored { s.store with image := imageAtLoad s.store, save := none }
        { s with hub := { s.hub with change := none } } rfl (h.change _ _ hs)
    exact h.closes _ _ (h.reply _ _ _ _ _ hd)
  · exact h.reply _ _ _ _ _ hs

theorem modeSet_handles (tag : Byte) (pl : List Byte) (s : State) (hs : Q s) : Q (modeSet tag pl s) := by
  unfold modeSet
  split
  · split
    · exact h.reply _ _ _ _ _ hs
    · split
      · exact h.reply _ _ _ _ _ hs
      · split
        · exact h.reply _ _ _ _ _ hs
        · exact settleChange_keeps h.toTorn _ (modeLapse_keeps h.toInner _ _ (modeLapse_keeps h.toInner _ _
            (endOperation_keeps h.toLocal _ _ _ (endOperation_keeps h.toLocal _ _ _ (h.change _ _ hs)))))
  · exact h.reply _ _ _ _ _ hs

omit h in
/-- The accepted settings of a line go to its engine and to the working settings. -/
theorem acceptLine_eq (l : Line) (items : List Item) (s : State) :
    acceptLine l items s =
      { s with lines := (acceptLine l items s).lines, store := (acceptLine l items s).store } := by
  unfold acceptLine
  split <;> rfl

theorem applySettings_handles (items : List Item) (s : State) (hn : s.now = n) (hs : Q s) :
    Q (applySettings items s) := by
  have hset : Q (restartSilence (acceptLine .c items (acceptLine .s items
      { s with store := { s.store with working := items.foldl applyItem s.store.working } }))) := by
    rw [acceptLine_eq .c, acceptLine_eq .s]
    exact h.settings _ _ s hn hs
  unfold applySettings applyPlugUsed
  dsimp only
  split
  · exact hset
  · split
    · exact plugRise_keeps h.toLink _ hset
    · split
      · exact plugFall_keeps h.toLink _ hset
      · exact hset

theorem settingsSet_handles (tag : Byte) (pl : List Byte) (s : State) (hn : s.now = n) (hs : Q s) :
    Q (settingsSet tag pl s) := by
  unfold settingsSet
  split
  · exact h.reply _ _ _ _ _ hs
  · split
    · exact h.reply _ _ _ _ _ hs
    · dsimp only
      split
      · exact settleChange_keeps h.toTorn _ (h.reply _ _ _ _ _ (applySettings_handles h _ _ hn hs))
      · exact h.reply _ _ _ _ _ hs

theorem storeSave_handles (tag : Byte) (pl : List Byte) (s : State) (hs : Q s) : Q (storeSave tag pl s) := by
  unfold storeSave
  split
  · split
    · exact h.reply _ _ _ _ _ hs
    · exact h.stored _ _ rfl hs
  · exact h.reply _ _ _ _ _ hs

theorem profilePut_handles (tag : Byte) (pl : List Byte) (s : State) (hs : Q s) : Q (profilePut tag pl s) := by
  unfold profilePut
  split
  · exact h.reply _ _ _ _ _ hs
  · exact h.reply _ _ _ _ _ hs
  · split
    · split
      · exact h.reply _ _ _ _ _ hs
      · exact h.reply _ _ _ _ _ (h.profiles _ _ hs)
    · split
      · exact h.reply _ _ _ _ _ hs
      · exact h.reply _ _ _ _ _ (h.profiles _ _ hs)

theorem profileDrop_handles (tag : Byte) (pl : List Byte) (s : State) (hs : Q s) : Q (profileDrop tag pl s) := by
  unfold profileDrop
  split
  · dsimp only
    split
    · exact h.reply _ _ _ _ _ hs
    · split
      · exact h.reply _ _ _ _ _ hs
      · exact h.reply _ _ _ _ _ (h.profiles _ _ hs)
  · exact h.reply _ _ _ _ _ hs

theorem stationRestart_handles (tag : Byte) (pl : List Byte) (s : State) (hs : Q s) :
    Q (stationRestart tag pl s) := by
  unfold stationRestart
  split
  · exact h.reply _ _ _ _ _ hs
  · exact settleChange_keeps h.toTorn _ (h.reply _ _ _ _ _
      (leaveUnlessAbsent_keeps h.toLink _ _ _ (h.transfer _ _ _ hs)))

theorem paramStart_handles (kind : TransferKind) (tag : Byte) (pl : List Byte) (s : State) (hs : Q s) :
    Q (paramStart kind tag pl s) := by
  unfold paramStart
  dsimp only
  split
  · exact h.reply _ _ _ _ _ hs
  · split
    · exact h.reply _ _ _ _ _ hs
    · split
      · exact h.reply _ _ _ _ _ hs
      · split
        · exact h.reply _ _ _ _ _ hs
        · exact h.transfer _ _ _ hs

theorem claimRead_handles (tag : Byte) (pl : List Byte) (s : State) (hs : Q s) : Q (claimRead tag pl s) := by
  unfold claimRead
  split
  · exact h.reply _ _ _ _ _ hs
  · split
    · exact h.reply _ _ _ _ _ hs
    · exact h.reply _ _ _ _ _ (claimReadTake_keeps h.toInner _ _ _ hs)

theorem claimSet_handles (tag : Byte) (pl : List Byte) (s : State) (hs : Q s) : Q (claimSet tag pl s) := by
  unfold claimSet
  split
  · exact h.reply _ _ _ _ _ hs
  · have htaken := claimSetTake_keeps h.toInner
    split
    · exact h.reply _ _ _ _ _ hs
    · dsimp only
      split <;> exact h.reply _ _ _ _ _ (htaken _ _ _ hs)

theorem claimRelease_handles (tag : Byte) (pl : List Byte) (s : State) (hs : Q s) :
    Q (claimRelease tag pl s) := by
  unfold claimRelease
  split
  · exact h.reply _ _ _ _ _ hs
  · split
    · exact h.reply _ _ _ _ _ (claimReleaseTake_keeps h.toInner _ _ hs)
    · exact h.reply _ _ _ _ _ hs

theorem operate_handles (tag : Byte) (pl : List Byte) (s : State) (hs : Q s) : Q (operate tag pl s) := by
  unfold operate
  split
  · exact h.reply _ _ _ _ _ hs
  · split
    · exact h.reply _ _ _ _ _ hs
    · exact h.reply _ _ _ _ _ (immediateDone_keeps h.toLocal _ _ _ _ hs)
    · exact startOperation_keeps h.toLocal _ _ _ _ _ _ _ (fun _ hs => h.reply _ _ _ _ _ hs) _ hs

theorem opStop_handles (tag : Byte) (pl : List Byte) (s : State) (hs : Q s) : Q (opStop tag pl s) := by
  unfold opStop
  split
  · exact h.reply _ _ _ _ _ hs
  · have hstopped := stopOperation_keeps h.toLocal
    split
    · dsimp only
      split <;> exact h.reply _ _ _ _ _ (hstopped _ _ hs)
    · exact h.reply _ _ _ _ _ hs

theorem resultTake_handles (tag : Byte) (pl : List Byte) (s : State) (hs : Q s) : Q (resultTake tag pl s) := by
  unfold resultTake
  split
  · exact h.reply _ _ _ _ _ hs
  · exact h.reply _ _ _ _ _ (takeResult_keeps h.toLocal _ _ _ hs)

theorem tripClear_handles (tag : Byte) (pl : List Byte) (s : State) (hs : Q s) : Q (tripClear tag pl s) := by
  unfold tripClear
  split
  · exact h.reply _ _ _ _ _ hs
  · split
    · exact h.reply _ _ _ _ _ hs
    · exact h.reply _ _ _ _ _ hs
    · exact h.reply _ _ _ _ _ (clearTrip_keeps h.toLocal _ _ hs)

theorem alertAck_handles (tag : Byte) (pl : List Byte) (s : State) (hs : Q s) : Q (alertAck tag pl s) := by
  unfold alertAck
  split
  · exact h.reply _ _ _ _ _ (ackAlert_keeps h.toPanel _ hs)
  · exact h.reply _ _ _ _ _ hs

end Handlers

/-- `f` checks the port for `code`, and what it does with a request taken keeps what every owning block keeps. -/
def Takes (code tag : Byte) (f : State → State) : Prop :=
  ∃ handle, f = takeRequest code tag handle ∧
    ∀ (n : Nat) (Q : State → Prop), Handling n Q → ∀ s, s.now = n → Q s → Q (handle s)

theorem takes_takeRequest {code tag : Byte} {handle : State → State}
    (hh : ∀ {n : Nat} {Q : State → Prop}, Handling n Q → ∀ s, s.now = n → Q s → Q (handle s)) :
    Takes code tag (takeRequest code tag handle) := ⟨handle, rfl, fun _ _ => hh⟩

theorem takes_quickReply (code tag : Byte) (answer : State → Status × List Byte) :
    Takes code tag (quickReply code tag answer) :=
  ⟨fun s => replyBytes code tag (answer s).1 (answer s).2 s, rfl, fun _ _ h _ _ hs => h.reply _ _ _ _ _ hs⟩

/-- Every handler of the catalogue checks the port for its own code (R184, R187). -/
theorem handler_takes {code tag : Byte} {payload : List Byte} {f : State → State}
    (hf : requestHandler code tag payload = some f) : Takes code tag f := by
  have hcode : code = BitVec.ofNat 8 code.toNat := by simp
  unfold requestHandler at hf
  split at hf
  case h_33 => exact nomatch hf
  all_goals
    rename_i hnat
    rw [hnat] at hcode
    subst hcode
    cases hf
  case h_1 | h_6 | h_9 | h_11 | h_12 | h_16 | h_23 | h_31 => exact takes_quickReply _ _ _
  all_goals refine takes_takeRequest (fun h s hn hs => ?_)
  case h_2 => exact hubStatus_handles h _ _ _ hs
  case h_3 => exact hubReset_handles h _ _ _ hs
  case h_4 => exact modeSet_handles h _ _ _ hs
  case h_5 => exact settingsSet_handles h _ _ _ hn hs
  case h_7 => exact storeSave_handles h _ _ _ hs
  case h_8 => exact profilePut_handles h _ _ _ hs
  case h_10 => exact profileDrop_handles h _ _ _ hs
  case h_13 => exact stationRestart_handles h _ _ _ hs
  case h_14 | h_15 => exact paramStart_handles h _ _ _ _ hs
  case h_17 => exact rawWrite_handles h.toAnswered h.toImage _ _ _ hs
  case h_18 => exact pointsRead_handles h.toAnswered h.sampled _ _ _ hs
  case h_19 => exact changesClear_handles h.toAnswered h.sampled _ _ _ hs
  case h_20 => exact pointNotify_handles h.toAnswered h.sampled _ _ _ hs
  case h_21 => exact pointWrite_handles h.toAnswered h.toImage h.lamps _ _ _ hs
  case h_22 => exact pointFence_handles h.toAnswered h.outAny _ _ _ hs
  case h_24 => exact claimRead_handles h _ _ _ hs
  case h_25 => exact claimSet_handles h _ _ _ hs
  case h_26 => exact claimRelease_handles h _ _ _ hs
  case h_27 => exact operate_handles h _ _ _ hs
  case h_28 => exact opStop_handles h _ _ _ hs
  case h_29 => exact resultTake_handles h _ _ _ hs
  case h_30 => exact tripClear_handles h _ _ _ hs
  case h_32 => exact alertAck_handles h _ _ _ hs

/-! ### The table and the silence timer (R183, R184, R192) -/

/-- The table holds `table`, the silent flag is clear and the timer runs from time `n` for the timeout in force. -/
def Heard (table : List Outstanding) (n : Nat) (t : State) : Prop :=
  t.port.table = table ∧ t.port.silent = false ∧
    t.port.silenceTimer =
      if t.store.working.hostTimeoutMs = 0 then none else some (n + t.store.working.hostTimeoutMs)

section Heard

variable {table : List Outstanding} {n : Nat}

theorem heard_congr {s t : State} (hp : portCore t.port = portCore s.port)
    (hw : t.store.working = s.store.working) (h : Heard table n s) : Heard table n t := by
  have htable : t.port.table = s.port.table := (congrArg HostPort.table hp :)
  have hsilent : t.port.silent = s.port.silent := (congrArg HostPort.silent hp :)
  have htimer : t.port.silenceTimer = s.port.silenceTimer := (congrArg HostPort.silenceTimer hp :)
  rw [Heard, htable, hsilent, htimer, hw]
  exact h

theorem heard_link : Link (Heard table n) where
  points _ _ _ h := h
  out _ _ _ _ h := h
  notice _ _ _ := heard_congr (notice_portCore _ _ _) (by rw [notice_store])
  cab _ _ h := h
  permit _ _ _ _ h := h
  untrip _ _ h := h
  op _ _ _ h := h
  result _ _ _ _ _ h := h
  unmark _ _ _ h := h
  mark _ _ _ _ h := h
  owner _ _ _ h := h
  line _ _ _ h := h
  outAny _ _ _ h := h
  sampled _ _ _ h := h
  station _ _ _ _ h := h
  settle := settle_of (fun _ _ _ h => h) (fun _ _ _ _ _ => heard_congr rfl rfl)
  stale _ _ h := h
  raw _ _ h := h
  choices _ _ h := h
  time _ _ h := h

theorem heard_handling : Handling n (Heard table n) where
  toLink := heard_link
  reply _ _ _ _ _ := heard_congr rfl rfl
  roomLink := heard_link
  unchange _ _ _ h := h
  lamps _ _ h := h
  change _ _ h := h
  transfer _ _ _ h := h
  stored _ _ hw := heard_congr rfl hw
  profiles _ _ h := h
  cleared _ h := h
  closes _ _ h := h
  settings _ _ _ hn h := ⟨h.1, rfl, by subst hn; rfl⟩

theorem heard_acceptRequest (code tag : Byte) (s : State) :
    Heard (s.port.table ++ [⟨code, tag⟩]) s.now (acceptRequest code tag s) := ⟨rfl, rfl, rfl⟩

end Heard

/-- Settles O11: what the owning block does with a request taken keeps what the port noted of it. -/
theorem requestTakenOrRefused : Obligations.RequestTakenOrRefused := by
  refine ⟨fun code tag payload f s hf hready => ?_, fun code tag payload f s hf hopen => ?_⟩
  · obtain ⟨handle, rfl, hh⟩ := handler_takes hf
    rw [takeRequest_ready _ _ _ _ hready]
    exact hh _ _ heard_handling _ rfl (heard_acceptRequest code tag s)
  · obtain ⟨handle, rfl, -⟩ := handler_takes hf
    refine ⟨fun htag => ?_, fun htag hfull => ?_⟩
    · simp [takeRequest, hopen, htag]
    · simp [takeRequest, hopen, htag, tableLimit, hfull]

/-! ### A port that takes no frame, and the RESET pin (R184, R191, R206) -/

theorem portClosed_of_held {s : State} (h : s.held = true) : portClosed s = true := by simp [portClosed, h]

theorem unlessHeld_of_held {f : State → State} {s : State} (h : s.held = true) : unlessHeld f s = s := if_pos h

theorem unlessHeld_of_high {f : State → State} {s : State} (h : s.held = false) : unlessHeld f s = f s := by
  simp [unlessHeld, h]

section Closed

variable {s : State} (h : portClosed s = true)

include h

theorem takeRequest_closed (code tag : Byte) (handle : State → State) : takeRequest code tag handle s = s := if_pos h

theorem takeCode_closed (code tag : Byte) (payload : List Byte) : takeCode code tag payload s = s := by
  unfold takeCode
  split
  · rename_i f hf
    obtain ⟨handle, rfl, -⟩ := handler_takes hf
    exact takeRequest_closed h _ _ _
  · exact if_pos h

theorem takeFrame_closed (cls code tag : Byte) (payload : List Byte) : takeFrame cls code tag payload s = s := by
  unfold takeFrame
  split
  · exact takeCode_closed h _ _ _
  · exact if_pos h

theorem takeBytes_closed (bytes : List HostByte) : takeBytes bytes s = s := if_pos h

theorem takeGap_closed (before : List HostByte) (after : HostByte) : takeGap before after s = s := if_pos h

end Closed

/-- While the pin is low only its release and a power-on do anything (R206; log entry 24). -/
theorem exec_of_held {c : Instr} {s : State} (h : s.held = true) (hpower : ∀ p b l, c ≠ .powerOnReset p b l)
    (hrelease : ∀ p b l, c ≠ .resetPinRelease p b l) : exec c s = .next s := by
  have hclosed := portClosed_of_held h
  have hrequest : ∀ code tag handle,
      Host.Outcome.next (φ := Fault) (ρ := Refusal) (takeRequest code tag handle s) = .next s :=
    fun _ _ _ => congrArg _ (takeRequest_closed hclosed _ _ _)
  have htimer : ∀ f, Host.Outcome.next (φ := Fault) (ρ := Refusal) (unlessHeld f s) = .next s :=
    fun _ => congrArg _ (unlessHeld_of_held h)
  cases c with
  | powerOnReset p b l => exact absurd rfl (hpower p b l)
  | resetPinRelease p b l => exact absurd rfl (hrelease p b l)
  | resetPinFall => exact congrArg _ (if_pos h)
  | claimRead req | claimSet req | claimRelease req | operate req | opStop req | tripClear req =>
    cases req with
    | remote => exact hrequest _ _ _
    | cab => exact htimer _
  | unknownRequest => exact congrArg _ (takeCode_closed hclosed _ _ _)
  | wrongClassFrame => exact congrArg _ (takeFrame_closed hclosed _ _ _ _)
  | badHostFrame => exact congrArg _ (takeBytes_closed hclosed _)
  | hostByteGap => exact congrArg _ (takeGap_closed hclosed _ _)
  | noticeSendBegin | messageSent => exact congrArg _ (whileSending_of_held h)
  | hubInfo | hubStatus | hubReset | modeSet | settingsSet | settingsGet | storeSave | profilePut | profileGet
  | profileDrop | profileList | stationList | stationRestart | paramRead | paramWrite | rawSamples | rawWrite
  | pointsRead | changesClear | pointNotify | pointWrite | pointFence | groupStatus | resultTake | alertStatus
  | alertAck => exact hrequest _ _ _
  | _ => exact htimer _

theorem lout_of_held {s : State} (h : s.held = true) (k : Nat) : lout s k = false := by
  unfold lout
  split <;> simp [h]

theorem resetPinFall_of_high {s : State} (h : s.held = false) :
    resetPinFall s =
      { s with
        held := true
        lines := ⟨stopEngine s.lines.s, stopEngine s.lines.c⟩
        permitPins := ⟨false, false⟩
        lampLines := s.lampLines.map darkLamp
        store := { s.store with image := imageAtLoad s.store, save := none } } := by
  simp [resetPinFall, h]

theorem attn_of_held {s : State} (h : s.held = true) : attn s = true := by
  unfold attn
  split <;> simp [h]

/-- Settles O3: what the fall leaves is read off its equation; while the pin is low every command's guard refuses. -/
theorem resetPinHoldsHub : Obligations.ResetPinHoldsHub := by
  refine ⟨fun s h => ⟨resetPinFall s, rfl, ?_⟩, fun c s h => exec_of_held h⟩
  have hheld := resetPinFall_held s
  refine ⟨hheld, lout_of_held hheld, fun l => ?_, ?_, portClosed_of_held hheld, attn_of_held hheld⟩
  · rw [resetPinFall_of_high h]
    cases l <;> exact ⟨rfl, rfl⟩
  · rw [resetPinFall_of_high h]
    rfl

/-- What a row answers when its request is ready to be taken. -/
theorem next_takeRequest {code tag : Byte} {handle : State → State} {s : State} (h : Ready s tag) :
    Host.Outcome.next (φ := Fault) (ρ := Refusal) (takeRequest code tag handle s) =
      .next (handle (acceptRequest code tag s)) :=
  congrArg Host.Outcome.next (takeRequest_ready code tag handle s h)

/-! ### HUB_RESET (R191, R199, R205) -/

/-- Behind the reply of a HUB_RESET nothing is sent any more. -/
theorem hubResetReplySent_of {s : State} (hdue : s.port.resetBy.isSome = true)
    (hgone : ∀ o ∈ s.port.table, o.code ≠ 3) : hubResetReplySent s = true := by
  simpa [hubResetReplySent, hdue] using hgone

theorem whileSending_of_sent {f : HostPort → HostPort} {s : State} (h : hubResetReplySent s = true) :
    whileSending f s = s := by
  simp [whileSending, portSends, h]

theorem idlePort_of_sent {s : State} (h : hubResetReplySent s = true) : idlePort s = s := by
  unfold idlePort
  split
  · exact whileSending_of_sent h
  · rfl

/-- Settles O10. -/
theorem hubResetClosesPort : Obligations.HubResetClosesPort := by
  refine ⟨fun s tag h => ?_, fun s h => ?_, fun s hdue hgone => ?_, fun s p b l hnone => ?_⟩
  · have htable : (hubReset tag [] (acceptRequest 3 tag s)).port.table = s.port.table ++ [⟨3, tag⟩] := rfl
    have hclosed : portClosed (hubReset tag [] (acceptRequest 3 tag s)) = true := by
      simp [portClosed, hubReset, updPort]
    refine ⟨hubReset tag [] (acceptRequest 3 tag s), next_takeRequest h, rfl, rfl, hclosed, ?_,
      fun o ho => ?_, ?_⟩
    · rw [htable]
      simp
    · rw [htable]
      simp [ho]
    · simp [hubReset, dropTimedWork, imageAtLoad, updPort, replyBytes, pushMessage, acceptRequest, enterTable,
        hearRequest, restartSilence] <;> rfl
  · exact ⟨fun _ _ _ _ => congrArg _ (takeFrame_closed h _ _ _ _), fun _ _ _ => congrArg _ (takeCode_closed h _ _ _),
      fun _ => congrArg _ (takeBytes_closed h _), fun _ _ => congrArg _ (takeGap_closed h _ _)⟩
  · have hsent := hubResetReplySent_of hdue hgone
    refine ⟨congrArg _ (whileSending_of_sent hsent), congrArg _ (whileSending_of_sent hsent), fun hempty => ?_⟩
    rw [step, hempty]
    exact congrArg _ (idlePort_of_sent hsent)
  · have hrest : hubResetDue p b l s = s := by simp [hubResetDue, hnone]
    refine congrArg Host.Outcome.next ?_
    rw [unlessHeld, hrest, ite_self]

/-! ### The resets (R206) -/

theorem any_code_iff (table : List Outstanding) :
    table.any (fun o => o.code == 3) = true ↔ ∃ o ∈ table, o.code = 3 := by simp

/-- The reset of a HUB_RESET takes place at its latest time, or at once when its reply has been sent. -/
theorem hubResetDue_eq {s : State} {d : Nat} (p : Bool) (b : BitVec 2) (l : Byte) (hd : s.port.resetBy = some d) :
    hubResetDue p b l s =
      resetHub p b l { s with now := if ∃ o ∈ s.port.table, o.code = 3 then max s.now d else s.now } := by
  have hsent : hubResetReplySent s = !s.port.table.any (fun o => o.code == 3) := by simp [hubResetReplySent, hd]
  rw [hubResetDue, hd, hsent]
  by_cases hin : ∃ o ∈ s.port.table, o.code = 3
  · simp only [(any_code_iff _).2 hin, hin, if_true]
    rfl
  · have hout : s.port.table.any (fun o => o.code == 3) = false := by simpa using hin
    simp only [hout, hin, if_false]
    rfl

/-- Each of the three rows resets the hub at some time `n`, which the first two do not move. -/
theorem exec_resets {p : Bool} {b : BitVec 2} {l : Byte} {s : State} {c : Instr}
    (hc : c = .powerOnReset p b l ∨ (s.held = true ∧ c = .resetPinRelease p b l) ∨
      (s.held = false ∧ s.port.resetBy.isSome = true ∧ c = .hubResetTakesPlace p b l)) :
    ∃ n, exec c s = .next (resetHub p b l { s with now := n }) ∧
      ∀ d, c = .hubResetTakesPlace p b l → s.port.resetBy = some d →
        n = if ∃ o ∈ s.port.table, o.code = 3 then max s.now d else s.now := by
  rcases hc with rfl | ⟨hheld, rfl⟩ | ⟨hheld, hdue, rfl⟩
  · exact ⟨s.now, rfl, nofun⟩
  · exact ⟨s.now, congrArg _ (if_pos hheld), nofun⟩
  · obtain ⟨d, hd⟩ := Option.isSome_iff_exists.1 hdue
    refine ⟨_, congrArg _ ((unlessHeld_of_high hheld).trans (hubResetDue_eq p b l hd)), fun d' _ hd' => ?_⟩
    rw [hd] at hd'
    cases hd'
    rfl

theorem loadImage_settings (image : Option Stored) :
    (loadImage image).settings = (image.map (·.settings)).getD Settings.factory := by cases image <;> rfl

theorem loadImage_profiles (image : Option Stored) :
    (loadImage image).profiles = (image.map (·.profiles)).getD [] := by cases image <;> rfl

/-- Settles O4: the reset state is read off field by field. -/
theorem resetsReturnHub : Obligations.ResetsReturnHub := by
  intro p b l s c hc image w himage hw
  obtain ⟨n, hexec, hnow⟩ := exec_resets hc
  have himage' : imageAtLoad s.store = image := himage.symm
  have hw' : (loadImage image).settings = w := by rw [loadImage_settings, hw]
  refine ⟨_, hexec, ?_, ?_, ?_, ?_, ⟨rfl, rfl, rfl, rfl⟩, ⟨?_, rfl⟩, ?_, rfl, rfl, ?_, ?_, ?_, rfl, ?_⟩
  · simp only [resetHub, himage', hw']
  · simp only [resetHub, himage', loadImage_profiles]
  · simp only [resetHub, himage', hw']
  · intro line
    cases line <;> simp [resetHub, himage', hw', engineAtReset, ByLine.get]
  · simp only [resetHub, himage', hw', engineAtReset]
  · intro k
    simp [resetHub, StationRec.reset, OutState.reset]
  · intro g
    cases g <;> exact ⟨rfl, rfl, rfl, rfl, fun src => by cases src <;> rfl⟩
  · exact ⟨rfl, rfl, rfl, rfl, fun g => by cases g <;> rfl⟩
  · simp [resetHub, portAtReset, himage', hw', storeInvalidMessage, noticeCode, PortCounters.zero]
  · exact hnow

end Sys2Proof.Proofs
end

section
/-! Frames on the host link (R178 to R184, R188, R189): requests of no owner, messages on their way out byte by byte,
and the framer, which reads every well-formed frame back and counts the others. -/

namespace Sys2Proof.Proofs

open Sys2Proof Sys2Proof.Machine Sys2Proof.Safety Sys2Proof.Laws

/-! ### Unknown codes and other classes (R183, R184) -/

theorem requestHandler_of_unlisted {code tag : Byte} {payload : List Byte} (h : code.toNat ∉ requestCodes) :
    requestHandler code tag payload = none := by
  unfold requestHandler
  split
  case h_33 => rfl
  all_goals
    rename_i hcode
    rw [hcode] at h
    exact absurd (by decide) h

/-- Settles O12. -/
theorem unknownCodeAndWrongClass : Obligations.UnknownCodeAndWrongClass := by
  refine ⟨fun s code tag payload hopen hcode => ?_, fun s cls code tag payload hopen hcls => ?_⟩
  · refine congrArg Host.Outcome.next ?_
    have hfifo : (hearRequest s).port.fifo = s.port.fifo := rfl
    rw [takeCode, requestHandler_of_unlisted hcode]
    simp only [badCode, hopen, uncountedReply, hfifo, uncountedLimit, Bool.false_eq_true, if_false]
    by_cases hroom : countSort .uncountedReply s.port.fifo < 8
    · rw [if_pos hroom, if_neg (by omega)]
      rfl
    · rw [if_neg hroom, if_pos (by omega)]
      rfl
  · refine congrArg Host.Outcome.next ?_
    rw [takeFrame, if_neg hcls]
    simp [countWrongClass, hopen, updPort, satSucc, counterTop]

/-! ### Messages on their way out (R179, R188, R189) -/

theorem portSends_of {s : State} (hheld : s.held = false)
    (hreply : s.port.resetBy = none ∨ ∃ o ∈ s.port.table, o.code = 3) : portSends s = true := by
  rcases hreply with hnone | hin
  · simp [portSends, hubResetReplySent, hheld, hnone]
  · rw [portSends, hubResetReplySent, (any_code_iff _).2 hin, hheld]
    simp

theorem whileSending_of_sends {f : HostPort → HostPort} {s : State} (h : portSends s = true) :
    whileSending f s = updPort f s := if_pos h

section Head

variable {p : HostPort} {m : Message} {rest : List Message} (hp : p.fifo = m :: rest)

include hp

theorem beginHead_of_waiting (hm : m.sort ≠ .notice ∨ m.begun = true) : beginHead p = p := by
  have hbegin : beginMessage m p = (m, p) := by
    unfold beginMessage
    rcases hm with hsort | hbegun
    · split
      · rename_i h
        exact absurd h hsort
      · rfl
    · rw [hbegun]
      split <;> rfl
  rw [beginHead, hp]
  simp only [hbegin]
  rw [← hp]

theorem beginHead_of_notice (hsort : m.sort = .notice) (hbegun : m.begun = false) :
    beginHead p =
      { p with
        overflowed := false
        sent := 1
        fifo := { m with begun := true, overflowBit := p.overflowed } :: rest } := by
  simp [beginHead, hp, beginMessage, hsort, hbegun]

theorem sendHead_of_waiting (hm : m.sort ≠ .notice ∨ m.begun = true) :
    sendHead p =
      { p with fifo := rest, sent := 0, table := freeTag m p.table, lastFrame := messageBytes m } := by
  rw [sendHead, beginHead_of_waiting hp hm]
  simp only [hp]

theorem sendHead_of_notice (hsort : m.sort = .notice) (hbegun : m.begun = false) :
    sendHead p =
      { p with
        overflowed := false
        fifo := rest
        sent := 0
        lastFrame := messageBytes { m with begun := true, overflowBit := p.overflowed } } := by
  rw [sendHead, beginHead_of_notice hp hsort hbegun]
  simp [freeTag, hsort]

theorem sendByte_of_more (h : p.sent + 1 < (messageBytes m).length) :
    sendByte p = { beginHead p with sent := p.sent + 1 } := by
  simp [sendByte, hp, h]

theorem sendByte_of_last (h : (messageBytes m).length ≤ p.sent + 1) : sendByte p = sendHead p := by
  simp [sendByte, hp, Nat.not_lt.2 h]

end Head

theorem length_messageBytes (m : Message) : (messageBytes m).length = 8 + m.payload.length := by
  simp [messageBytes, hostFrame, be16, checkBytes]
  omega

theorem messageBytes_eq (m : Message) :
    messageBytes m = hostFrame (if m.sort = .notice then (if m.overflowBit then 131 else 3) else 2)
      m.code m.tag m.payload := by
  have hclass : classByte m = if m.sort = .notice then (if m.overflowBit then 131 else 3) else 2 := by
    unfold classByte
    split <;> simp_all
  rw [messageBytes, hclass]

theorem messageBytes_of_reply {m : Message} (h : m.sort ≠ .notice) :
    messageBytes m = hostFrame 2 m.code m.tag m.payload := by
  rw [messageBytes_eq, if_neg h]

/-- What a step on an empty queue does on a UART port that sends. -/
theorem step_of_uart {s : State} (hsends : portSends s = true) (hkind : s.port.kind = .uart) (hq : s.pending = []) :
    step s = .next (updPort sendByte s) := by
  rw [step, hq]
  refine congrArg Host.Outcome.next ?_
  rw [idlePort, hkind]
  exact whileSending_of_sends hsends

theorem nextOutbound_of_empty {s : State} (h : s.port.fifo = []) :
    nextOutbound s = if s.port.kind = .uart then none else some 255 := by
  rw [nextOutbound, h, ite_self]
  cases s.port.kind <;> rfl

theorem nextOutbound_of_sends {s : State} {m : Message} {rest : List Message} (hsends : portSends s = true)
    (hfifo : s.port.fifo = m :: rest) : nextOutbound s = (messageBytes m)[s.port.sent]? := by
  simp [nextOutbound, hsends, hfifo]

/-- A transaction of fewer than eight clocks is all in its part: no byte is whole. -/
theorem spiTransaction_of_part {bits : List Bool} (h : bits.length < 8) (s : State) :
    (spiTransaction bits s).1 = s := by
  unfold spiTransaction
  split
  · simp at h
    omega
  · rfl

/-- Settles O13: every clause is an equation of `beginHead`, `sendHead` or `sendByte` at the head of the queue. -/
theorem messagesLeaveInOrder : Obligations.MessagesLeaveInOrder := by
  refine ⟨fun s m rest hheld hreply hfifo => ?_, fun s =>
    ⟨nextOutbound_of_empty, fun _ h => spiTransaction_of_part h s⟩⟩
  have hsends := portSends_of hheld hreply
  have hbegin : exec .noticeSendBegin s = .next { s with port := beginHead s.port } :=
    congrArg Host.Outcome.next (whileSending_of_sends hsends)
  have hsent : exec .messageSent s = .next { s with port := sendHead s.port } :=
    congrArg Host.Outcome.next (whileSending_of_sends hsends)
  rw [hbegin, hsent]
  refine ⟨fun hsort hbegun => ⟨?_, ?_⟩, fun hsort hbegun => ?_, fun hsort => ?_, fun hsort => ?_, fun _ => ?_,
    fun hkind hq => ⟨fun hmore => ⟨fun hm => ?_, fun hsort hbegun => ?_⟩, fun hlast => ?_⟩⟩
  · rw [beginHead_of_notice hfifo hsort hbegun]
  · rw [sendHead_of_notice hfifo hsort hbegun, messageBytes_eq]
    simp [hsort]
  · rw [sendHead_of_waiting hfifo (.inr hbegun), messageBytes_eq, hsort]
    simp [freeTag, hsort]
  · rw [sendHead_of_waiting hfifo (.inl (by simp [hsort])), messageBytes_of_reply (by simp [hsort])]
    simp [freeTag, hsort]
  · rw [sendHead_of_waiting hfifo (.inl (by simp [hsort])), messageBytes_of_reply (by simp [hsort])]
    simp [freeTag, hsort]
  · rw [nextOutbound_of_sends hsends hfifo, messageBytes_eq]
  · rw [step_of_uart hsends hkind hq, updPort, sendByte_of_more hfifo (by rw [length_messageBytes]; exact hmore),
      beginHead_of_waiting hfifo hm]
  · rw [step_of_uart hsends hkind hq, updPort, sendByte_of_more hfifo (by rw [length_messageBytes]; exact hmore),
      beginHead_of_notice hfifo hsort hbegun]
  · rw [step_of_uart hsends hkind hq, updPort, sendByte_of_last hfifo (by rw [length_messageBytes]; exact hlast)]

/-! ### The framer (R182) -/

/-- A byte that arrives with its stop bit. -/
def whole (b : Byte) : HostByte := ⟨b, true⟩

theorem map_value_whole (bs : List Byte) : (bs.map whole).map (·.value) = bs := by
  simp [Function.comp_def, whole]

theorem stopOk_getLast?_whole (bs : List Byte) :
    (((bs.map whole).getLast?).map (fun b => !b.stopOk)).getD false = false := by
  rw [List.getLast?_map]
  cases bs.getLast? <;> rfl

theorem opensFrame_whole (b : Byte) : opensFrame (whole b) = (b == 126) := rfl

/-- The header of a frame of whole bytes: start byte and length. -/
theorem assembled_short {bs : List Byte} (h : bs.length < 3) : assembled (bs.map whole) = .more := by
  rw [assembled, stopOk_getLast?_whole, map_value_whole]
  match bs, h with
  | [], _ | [_], _ | [_, _], _ => rfl

theorem assembled_badLength {x hi lo : Byte} {rest : List Byte} (h : 1024 < u16 hi lo) :
    assembled ((x :: hi :: lo :: rest).map whole) = .bad .badLength := by
  rw [assembled, stopOk_getLast?_whole, map_value_whole]
  simp [maxHostPayload, h]

theorem assembled_more {x hi lo : Byte} {rest : List Byte} (hn : u16 hi lo ≤ 1024)
    (h : rest.length < u16 hi lo + 5) : assembled ((x :: hi :: lo :: rest).map whole) = .more := by
  rw [assembled, stopOk_getLast?_whole, map_value_whole]
  simp [maxHostPayload, Nat.not_lt.2 hn, h]

/-- A frame whose bytes are all there is judged by its check. -/
theorem assembled_whole {x hi lo cls code tag : Byte} {payload check : List Byte} (hn : u16 hi lo ≤ 1024)
    (hpayload : payload.length = u16 hi lo) (hcheck : check.length = 2) :
    assembled ((x :: hi :: lo :: cls :: code :: tag :: (payload ++ check)).map whole) =
      if checkBytes (hi :: lo :: cls :: code :: tag :: payload) = check then .complete cls code tag payload
      else .bad .badCheck := by
  rw [assembled, stopOk_getLast?_whole, map_value_whole]
  have hlength : ¬ 1024 < payload.length := by omega
  simp [maxHostPayload, hlength, ← hpayload, hcheck, List.take_of_length_le]

/-- Bytes that complete nothing are kept. -/
theorem feed_more (fuel : Nat) (bs rest : List HostByte) :
    ∀ buf : List HostByte, buf ≠ [] → (∀ k < bs.length, assembled (buf ++ bs.take (k + 1)) = .more) →
      feed (fuel + bs.length) buf (bs ++ rest) = feed fuel (buf ++ bs) rest := by
  induction bs with
  | nil => simp
  | cons b bs ih =>
    intro buf hbuf h
    have hone : assembled (buf ++ [b]) = .more := h 0 (by simp)
    have hstep : feed (fuel + bs.length + 1) buf (b :: (bs ++ rest)) =
        feed (fuel + bs.length) (buf ++ [b]) (bs ++ rest) := by
      cases buf with
      | nil => exact absurd rfl hbuf
      | cons c cs => simp only [feed, hone]
    have hrest := ih (buf ++ [b]) (by simp) fun k hk => by
      simpa using h (k + 1) (by simpa using hk)
    calc feed (fuel + (b :: bs).length) buf (b :: bs ++ rest)
        = feed (fuel + bs.length + 1) buf (b :: (bs ++ rest)) := by rw [List.length_cons]; rfl
      _ = feed fuel (buf ++ b :: bs) rest := by rw [hstep, hrest]; simp

/-- In HUNT a byte that opens no frame is discarded. -/
theorem feed_hunt (bs : List HostByte) : ∀ fuel, (∀ b ∈ bs, opensFrame b = false) → feed fuel [] bs = ([], []) := by
  induction bs with
  | nil => intro fuel _; cases fuel <;> rfl
  | cons b bs ih =>
    intro fuel h
    cases fuel with
    | zero => rfl
    | succ fuel =>
      rw [feed, h b (by simp)]
      exact ih fuel fun c hc => h c (by simp [hc])

theorem feed_hunt_whole {bs : List Byte} (fuel : Nat) (h : ∀ b ∈ bs, b ≠ 126) :
    feed fuel [] (bs.map whole) = ([], []) := by
  refine feed_hunt _ fuel fun b hb => ?_
  obtain ⟨v, hv, rfl⟩ := List.mem_map.1 hb
  exact beq_false_of_ne (h v hv)

theorem feed_complete (fuel : Nat) {buf : List HostByte} {b : HostByte} {cls code tag : Byte} {payload : List Byte}
    (hbuf : buf ≠ []) (h : assembled (buf ++ [b]) = .complete cls code tag payload) :
    feed (fuel + 1) buf [b] = ([.frame cls code tag payload], []) := by
  cases buf with
  | nil => exact absurd rfl hbuf
  | cons c cs => simp only [feed, h, feed_hunt [] fuel (by simp)]

theorem feed_bad (fuel : Nat) {buf : List HostByte} {b : HostByte} {why : BadFrame} (hbuf : buf ≠ [])
    (h : assembled (buf ++ [b]) = .bad why) :
    feed (fuel + 1) buf [b] =
      (.bad why :: (feed fuel [] ((buf ++ [b]).drop 1)).1, (feed fuel [] ((buf ++ [b]).drop 1)).2) := by
  cases buf with
  | nil => exact absurd rfl hbuf
  | cons c cs => simp only [feed, h, List.append_nil]

/-- From HUNT a frame's bytes are kept up to its last one, which `assembled` then judges with all of them. -/
theorem feed_frame (fuel : Nat) {hi lo last : Byte} {body : List Byte} (hn : u16 hi lo ≤ 1024)
    (hbody : body.length < u16 hi lo + 5) :
    feed (fuel + 1 + (body.length + 3)) [] ((126 :: hi :: lo :: (body ++ [last])).map whole) =
      feed (fuel + 1) ((126 :: hi :: lo :: body).map whole) [whole last] := by
  have hopen : feed (fuel + 1 + (body.length + 3)) [] ((126 :: hi :: lo :: (body ++ [last])).map whole) =
      feed (fuel + 1 + ((hi :: lo :: body).map whole).length) [whole 126]
        ((hi :: lo :: body).map whole ++ [whole last]) := by
    have hfuel : fuel + 1 + (body.length + 3) = fuel + 1 + ((hi :: lo :: body).map whole).length + 1 := by
      simp
      omega
    rw [hfuel]
    simp [feed, opensFrame_whole]
  rw [hopen, feed_more _ _ _ _ (by simp) fun k hk => ?_]
  · simp
  · match k, hk with
    | 0, _ => exact assembled_short (bs := [126, hi]) (by simp)
    | k + 1, hk =>
      have hmore := assembled_more (x := 126) (rest := body.take k) hn (by simp; omega)
      simpa using hmore

theorem le_feedFuel (n : Nat) : n ≤ feedFuel n := by
  unfold feedFuel
  nlinarith

/-- A whole frame that arrives in HUNT leaves what `feed` makes of its last byte. -/
theorem arriveBytes_frame {hi lo last : Byte} {body : List Byte} (hn : u16 hi lo ≤ 1024)
    (hbody : body.length < u16 hi lo + 5) :
    ∃ fuel, arriveBytes [] ((126 :: hi :: lo :: (body ++ [last])).map whole) =
      feed (fuel + 1) ((126 :: hi :: lo :: body).map whole) [whole last] := by
  have hfuel := le_feedFuel (body.length + 4)
  refine ⟨feedFuel (body.length + 4) - (body.length + 4), ?_⟩
  have hlength : (List.map whole (126 :: hi :: lo :: (body ++ [last]))).length = body.length + 4 := by simp
  rw [← feed_frame _ hn hbody, arriveBytes, List.length_nil, Nat.zero_add, hlength]
  congr 1
  omega

theorem u16_be16 {n : Nat} (h : n < 65536) : u16 (byteOf (n / 256)) (byteOf n) = n := by
  simp [u16, byteOf]
  omega

/-- Settles O15: the frame's last byte completes it, and the check it carries is its own. -/
theorem framerReadsEveryFrame : Obligations.FramerReadsEveryFrame := by
  intro cls code tag payload hlength
  have hlen := u16_be16 (n := payload.length) (by omega)
  set hi := byteOf (payload.length / 256) with hhi
  set lo := byteOf payload.length with hlo
  set c := crc16 (hi :: lo :: cls :: code :: tag :: payload) with hc
  have hframe : hostFrame cls code tag payload =
      126 :: hi :: lo :: (cls :: code :: tag :: (payload ++ [byteOf (c.toNat / 256)]) ++ [byteOf c.toNat]) := by
    simp [hostFrame, be16, checkBytes, startByte, hhi, hlo, hc]
  have hcheck : checkBytes (hi :: lo :: cls :: code :: tag :: payload) = [byteOf (c.toNat / 256), byteOf c.toNat] := rfl
  have hwhole := assembled_whole (x := 126) (cls := cls) (code := code) (tag := tag) (hlen.trans_le hlength) hlen.symm
    (check := [byteOf (c.toNat / 256), byteOf c.toNat]) rfl
  rw [if_pos hcheck] at hwhole
  obtain ⟨fuel, hfuel⟩ := arriveBytes_frame (last := byteOf c.toNat) (hlen.trans_le hlength)
    (body := cls :: code :: tag :: (payload ++ [byteOf (c.toNat / 256)])) (by simp; omega)
  rw [hframe]
  show arriveBytes [] (List.map whole _) = _
  rw [hfuel, feed_complete _ (by simp)]
  simpa using hwhole

/-! ### Bad frames and gaps (R182) -/

theorem asSeen_whole (s : State) (b : Byte) : asSeen s (whole b) = whole b := by
  unfold asSeen
  split <;> rfl

theorem takeBytes_whole {s : State} (hopen : portClosed s = false) (hhunt : s.port.framer = []) (bs : List Byte) :
    takeBytes (bs.map whole) s = framerEvents (arriveBytes [] (bs.map whole)) s := by
  have hseen : (bs.map whole).map (asSeen s) = bs.map whole := by simp [asSeen_whole]
  simp [takeBytes, hopen, hhunt, hseen]

/-- A bad frame is counted, and the framer holds what the hunt has left. -/
theorem framerEvents_bad {s : State} (hopen : portClosed s = false) (why : BadFrame) (left : List HostByte) :
    framerEvents ([.bad why], left) s =
      { s with port := { s.port with framer := left, counters := countBad why s.port.counters } } := by
  have hclosed : portClosed (updPort (fun p => { p with counters := countBad why p.counters }) s) = false := hopen
  simp only [framerEvents, List.foldl_cons, List.foldl_nil, framerEvent, hopen, Bool.false_eq_true, if_false]
  rw [hclosed]
  rfl

theorem framerEvents_none {s : State} (hopen : portClosed s = false) (left : List HostByte) :
    framerEvents ([], left) s = { s with port := { s.port with framer := left } } := by
  simp [framerEvents, hopen, updPort]

/-- A frame that ends as bad in HUNT's first run: the hunt behind its start byte opens no other. -/
theorem arriveBytes_bad {hi lo last : Byte} {body : List Byte} {why : BadFrame} (hn : u16 hi lo ≤ 1024)
    (hbody : body.length < u16 hi lo + 5)
    (hbad : assembled ((126 :: hi :: lo :: (body ++ [last])).map whole) = .bad why)
    (hhunt : ∀ b ∈ hi :: lo :: (body ++ [last]), b ≠ 126) :
    arriveBytes [] ((126 :: hi :: lo :: (body ++ [last])).map whole) = ([.bad why], []) := by
  obtain ⟨fuel, hfuel⟩ := arriveBytes_frame (last := last) hn hbody
  have hlast : (126 :: hi :: lo :: body).map whole ++ [whole last] =
      (126 :: hi :: lo :: (body ++ [last])).map whole := by simp
  rw [hfuel, feed_bad _ (by simp) (hlast ▸ hbad), hlast]
  have hrest := feed_hunt_whole fuel hhunt
  simp only [List.map_cons, List.drop_succ_cons, List.drop_zero] at hrest ⊢
  rw [hrest]

/-- The check bytes of a whole frame do not match. -/
theorem arriveBytes_badCheck {hi lo : Byte} {body : List Byte} (hn : u16 hi lo ≤ 1024)
    (hbody : body.length = u16 hi lo + 5) (hhunt : ∀ b ∈ hi :: lo :: body, b ≠ 126)
    (hcheck : checkBytes (hi :: lo :: body.take (u16 hi lo + 3)) ≠ body.drop (u16 hi lo + 3)) :
    arriveBytes [] ((126 :: hi :: lo :: body).map whole) = ([.bad .badCheck], []) := by
  match body, hbody with
  | cls :: code :: tag :: more, hbody =>
    simp only [List.length_cons] at hbody
    have hwhole := assembled_whole (x := 126) (cls := cls) (code := code) (tag := tag) (hi := hi) (lo := lo) hn
      (payload := more.take (u16 hi lo)) (check := more.drop (u16 hi lo)) (by simp; omega) (by simp; omega)
    rw [List.take_append_drop, if_neg (by simpa using hcheck)] at hwhole
    have hlast : cls :: code :: tag :: more ≠ [] := by simp
    have hsplit := List.dropLast_append_getLast hlast
    rw [← hsplit] at hwhole hhunt ⊢
    exact arriveBytes_bad hn (by simp; omega) hwhole hhunt

theorem assembled_broken (buf : List HostByte) (b : Byte) : assembled (buf ++ [⟨b, false⟩]) = .bad .broken := by
  simp [assembled]

/-- A header alone that gives too long a frame. -/
theorem arriveBytes_badLength {hi lo : Byte} (hn : 1024 < u16 hi lo) :
    arriveBytes [] ([126, hi, lo].map whole) =
      (.bad .badLength :: (feed 13 [] ([hi, lo].map whole)).1, (feed 13 [] ([hi, lo].map whole)).2) := by
  have hshort : assembled ([whole 126] ++ [whole hi]) = .more := assembled_short (bs := [126, hi]) (by simp)
  have hlong : assembled ([whole 126, whole hi] ++ [whole lo]) = .bad .badLength :=
    assembled_badLength (x := 126) (rest := []) hn
  have htwo : feed 14 [whole 126, whole hi] [whole lo] = _ := feed_bad 13 (by simp) hlong
  show feed 16 [] [whole 126, whole hi, whole lo] = _
  rw [feed, opensFrame_whole]
  simp only [beq_self_eq_true, if_true]
  rw [feed, hshort]
  · exact htwo
  · simp

theorem arriveBytes_broken (b : Byte) : arriveBytes [] [whole 126, ⟨b, false⟩] = ([.bad .broken], []) := by
  have hend := feed_bad 7 (buf := [whole 126]) (by simp) (assembled_broken [whole 126] b)
  have hquiet := feed_hunt [⟨b, false⟩] 7 (by simp [opensFrame])
  show feed 9 [] [whole 126, ⟨b, false⟩] = _
  rw [feed, opensFrame_whole]
  simp only [beq_self_eq_true, if_true]
  rw [hend]
  simp [hquiet]

theorem arriveBytes_one (b : Byte) : arriveBytes [] [whole b] = ([], if b = 126 then [whole b] else []) := by
  show feed 4 [] [whole b] = _
  rw [feed, opensFrame_whole]
  simp [feed]

theorem arriveBytes_nil (buf : List HostByte) : arriveBytes buf [] = ([], buf) := by
  cases buf <;> rfl

/-- A gap with no byte before the one that ends it. -/
theorem takeGap_nil {s : State} (hopen : portClosed s = false) (b : Byte) :
    takeGap [] (whole b) s =
      framerEvents (if s.port.framer = [] then [] else [.bad .broken], if b = 126 then [whole b] else []) s := by
  have hgap : arriveGap s.port.framer [] (whole b) =
      (if s.port.framer = [] then [] else [.bad .broken], if b = 126 then [whole b] else []) := by
    simp [arriveGap, arriveBytes_nil, arriveBytes_one]
  rw [takeGap, hopen, asSeen_whole, List.map_nil, hgap]
  rfl

/-- Settles O14: what the framer makes of the bytes, and then the one counter. -/
theorem badHostFramesAreCounted : Obligations.BadHostFramesAreCounted := by
  refine ⟨fun s hopen hhunt => ⟨fun hi lo body hn hbody hquiet hcheck => ?_, fun hi lo hn hhi hlo => ?_, fun lo => ?_,
    fun b huart => ?_⟩, fun s b hopen => ⟨fun hframe => ?_, fun hhunt => ?_⟩⟩
  · refine congrArg Host.Outcome.next ?_
    show takeBytes (List.map whole _) s = _
    rw [takeBytes_whole hopen hhunt, arriveBytes_badCheck hn hbody hquiet hcheck, framerEvents_bad hopen, ← hhunt]
    rfl
  · refine congrArg Host.Outcome.next ?_
    have hquiet := feed_hunt_whole (bs := [hi, lo]) 13 (by simpa using ⟨hhi, hlo⟩)
    show takeBytes ([126, hi, lo].map whole) s = _
    rw [takeBytes_whole hopen hhunt, arriveBytes_badLength hn, hquiet, framerEvents_bad hopen, ← hhunt]
    rfl
  · refine congrArg Host.Outcome.next ?_
    have hbytes : arriveBytes [] ([126, 126, lo].map whole) = ([.bad .badLength], [whole 126, whole lo]) := by
      have hkept : assembled ([whole 126] ++ [whole lo]) = .more := assembled_short (bs := [126, lo]) (by simp)
      have hsecond : feed 13 [] ([126, lo].map whole) = ([], [whole 126, whole lo]) := by
        show feed 13 [] [whole 126, whole lo] = _
        rw [feed, opensFrame_whole]
        simp only [beq_self_eq_true, if_true]
        rw [feed, hkept]
        · rfl
        · simp
      rw [arriveBytes_badLength (by simp [u16]; omega), hsecond]
    show takeBytes ([126, 126, lo].map whole) s = _
    rw [takeBytes_whole hopen hhunt, hbytes, framerEvents_bad hopen]
    rfl
  · refine congrArg Host.Outcome.next ?_
    have hseen : ([⟨126, true⟩, ⟨b, false⟩] : List HostByte).map (asSeen s) = [whole 126, ⟨b, false⟩] := by
      simp [asSeen, huart, whole]
    show takeBytes [⟨126, true⟩, ⟨b, false⟩] s = _
    rw [takeBytes, hopen, hseen, hhunt, arriveBytes_broken]
    simp only [Bool.false_eq_true, if_false]
    rw [framerEvents_bad hopen, ← hhunt]
    rfl
  · refine congrArg Host.Outcome.next ?_
    show takeGap [] (whole b) s = _
    rw [takeGap_nil hopen, if_neg hframe, framerEvents_bad hopen]
    rfl
  · refine congrArg Host.Outcome.next ?_
    show takeGap [] (whole b) s = _
    rw [takeGap_nil hopen, if_pos hhunt, framerEvents_none hopen]
    rfl

end Sys2Proof.Proofs
end

section
/-! Requests that read, and the requests on settings, the store, profiles, transfers and point flags: each is the
equation of its handler in the state that holds the request's entry (R39, R50 to R56, R80, R81, R96 to R99, R194 to
R205). -/

namespace Sys2Proof.Proofs

open Sys2Proof Sys2Proof.Machine Sys2Proof.Safety Sys2Proof.Laws

/-! ### What a row answers -/

/-- A quick request that is ready answers what its reading of the state gives. -/
theorem next_quickReply {code tag : Byte} {answer : State → Status × List Byte} {s : State} {st : Status}
    {body : List Byte} (h : Ready s tag) (ha : answer (acceptRequest code tag s) = (st, body)) :
    Host.Outcome.next (φ := Fault) (ρ := Refusal) (quickReply code tag answer s) =
      .next (replyBytes code tag st body (acceptRequest code tag s)) := by
  rw [quickReply_ready _ _ _ _ h, ha]

/-- A request that is ready answers what its handler makes of the state that holds its entry. -/
theorem next_handle {code tag : Byte} {handle : State → State} {s t : State} (h : Ready s tag)
    (ht : handle (acceptRequest code tag s) = t) :
    Host.Outcome.next (φ := Fault) (ρ := Refusal) (takeRequest code tag handle s) = .next t := by
  rw [next_takeRequest h, ht]

/-! ### Operands (R210, R211) -/

@[simp] theorem boolOfByte_bit (b : Bool) : boolOfByte (bit b) = some b := by cases b <;> rfl

@[simp] theorem lineOfByte_lineCode (l : Line) : lineOfByte (lineCode l) = some l := by cases l <;> rfl

@[simp] theorem stationOperand_code (k : Stn) :
    stationOperand (lineCode (lineOf k)) (byteOf (addressOf k)) = some k := by cases k <;> rfl

@[simp] theorem stationPayload_code (k : Stn) :
    stationPayload [lineCode (lineOf k), byteOf (addressOf k)] = some k := stationOperand_code k

/-! ### Snapshots (R39, R55, R56, R120, R177, R194, R195, R201, R203) -/

theorem reportedBaud_eq (p : HostPort) :
    reportedBaud p =
      if p.kind = .spi then 0
      else if p.rate = 0 then 115200 else if p.rate = 1 then 230400 else if p.rate = 2 then 460800 else 921600 := by
  unfold reportedBaud
  cases p.kind with
  | spi => rfl
  | uart =>
    generalize p.rate = r
    revert r
    decide

theorem timeLeft_restarted (now t : Nat) : timeLeft now (if t = 0 then none else some (now + t)) = t := by
  unfold timeLeft
  split
  · rename_i h
    exact h.symm
  · simp

theorem hubInfo_nil (s : State) :
    hubInfo [] s = (.ok, be16 Config.partIdentifier.toNat ++ [Config.designRevision, portKindCode s.port.kind]
      ++ be32 (reportedBaud s.port) ++ be16 256 ++ [12, 8, 32] ++ be16 1024 ++ [4, 1]) := rfl

theorem hubStatus_bit (tag : Byte) (clear : Bool) (s : State) :
    hubStatus tag [bit clear] s = replyBytes 2 tag .ok (statusBody s) (if clear then clearCounters s else s) := by
  rw [hubStatus, boolOfByte_bit]

/-- What HUB_STATUS reads in the state that holds its own entry: the timer has just been started. -/
theorem statusBody_acceptRequest (code tag : Byte) (s : State) :
    statusBody (acceptRequest code tag s) =
      [modeCode s.hub.mode, bit s.hub.change.isSome, bit s.store.invalid, bit s.store.save.isSome, 0]
        ++ be16 s.store.working.hostTimeoutMs
        ++ [byteOf (s.port.table.length + 1), byteOf (countSort .notice s.port.fifo), bit s.port.overflowed]
        ++ counterBytes s.port.counters ++ stateCounts s .s ++ stateCounts s .c := by
  have htimer : timeLeft s.now (acceptRequest code tag s).port.silenceTimer = s.store.working.hostTimeoutMs :=
    timeLeft_restarted _ _
  have htable : (acceptRequest code tag s).port.table.length = s.port.table.length + 1 := by simp
  simp only [statusBody, htable, acceptRequest_now, htimer]
  rfl

/-- Settles O17. -/
theorem hubInfoAndStatusReply : Obligations.HubInfoAndStatusReply := by
  refine fun s tag h => ⟨next_quickReply h ?_, fun clear => next_handle h ?_⟩
  · rw [hubInfo_nil, reportedBaud_eq]
    rfl
  · rw [hubStatus_bit, statusBody_acceptRequest]
    simp only [counterBytes, List.append_assoc]
    cases clear <;> rfl

/-- Settles O21. -/
theorem stationListAndRawSamplesReply : Obligations.StationListAndRawSamplesReply := by
  refine fun s tag h => ⟨fun l => next_quickReply h ?_, fun k r hmode hraw => next_quickReply h ?_,
    fun k hmode => next_quickReply h ?_⟩
  · rw [stationList, lineOfByte_lineCode]
    rfl
  · simp only [rawSamples, stationPayload_code, acceptRequest_hub, acceptRequest_raw, hmode, hraw]
    rfl
  · simp [rawSamples, hmode]

theorem profileGet_stored {s : State} {hi lo : Byte} {p : Profile} (h : tableProfile s (u16 hi lo) = some p) :
    profileGet [0, hi, lo] s = (.ok, profileBytes p ++ usersBytes (usersOf s (.table (u16 hi lo)))) := by
  simp [profileGet, h]

theorem profileGet_missing {s : State} {hi lo : Byte} (h : tableProfile s (u16 hi lo) = none) :
    profileGet [0, hi, lo] s = (.notFound, []) := by
  simp [profileGet, h]

/-- Settles O22. -/
theorem settingsAndProfileReplies : Obligations.SettingsAndProfileReplies := by
  refine ⟨fun s tag h => ⟨next_quickReply h ?_, fun b rest => next_quickReply h rfl⟩, fun s tag h =>
    ⟨fun hi lo p hp => next_quickReply h ?_, fun hi lo hp => next_quickReply h ?_,
      fun hi lo => next_quickReply h rfl, fun hi lo => next_quickReply h rfl, next_quickReply h rfl⟩⟩
  · rfl
  · exact profileGet_stored (s := acceptRequest 17 tag s) hp
  · exact profileGet_missing (s := acceptRequest 17 tag s) hp

/-- Settles O23. -/
theorem groupAndAlertStatusReply : Obligations.GroupAndAlertStatusReply := by
  refine fun s tag h => ⟨fun g => next_quickReply h ?_, next_quickReply h rfl⟩
  rw [groupStatus, groupPayload_groupCode]
  rfl

/-! ### Frames of the requests that read and of the requests on points and outputs -/

/-- A request changes nothing but the port where what its handler does is no more. -/
theorem takeRequest_frame {Q : State → Prop} (hport : ∀ p t, Q t → Q { t with port := p }) {code tag : Byte}
    {handle : State → State} (hh : ∀ t, Q t → Q (handle t)) {s : State} (hs : Q s) :
    Q (takeRequest code tag handle s) := by
  have huncounted : ∀ st, Q (uncountedReply code tag st (hearRequest s)) := fun st => by
    rw [uncountedReply_eq]
    exact hport _ s hs
  unfold takeRequest
  split
  · exact hs
  · split
    · exact huncounted _
    · split
      · exact huncounted _
      · exact hh _ (hport _ s hs)

/-- What the port alone may have of its own. -/
def PortMoved (s t : State) : Prop := ∃ p, t = { s with port := p }

/-- What the port and the points may have of their own. -/
def PointsMoved (s t : State) : Prop := ∃ p pts, t = { s with port := p, points := pts }

/-- What the port and the output writer may have of their own. -/
def OutputsMoved (s t : State) : Prop := ∃ p out, t = { s with port := p, outputs := out }

/-- What the port, the points and the output writer may have of their own. -/
def WritesMoved (s t : State) : Prop := ∃ p pts out, t = { s with port := p, points := pts, outputs := out }

/-- What the port, the points, the output writer and the lamp lines may have of their own. -/
def LampsMoved (s t : State) : Prop :=
  ∃ p pts out lamps, t = { s with port := p, points := pts, outputs := out, lampLines := lamps }

theorem portMoved_port {s : State} (p : HostPort) (t : State) : PortMoved s t → PortMoved s { t with port := p } := by
  rintro ⟨_, rfl⟩
  exact ⟨_, rfl⟩

theorem pointsMoved_port {s : State} (p : HostPort) (t : State) :
    PointsMoved s t → PointsMoved s { t with port := p } := by
  rintro ⟨_, _, rfl⟩
  exact ⟨_, _, rfl⟩

theorem pointsMoved_points {s : State} (t : State) (pts : List Point) :
    PointsMoved s t → PointsMoved s { t with points := pts } := by
  rintro ⟨_, _, rfl⟩
  exact ⟨_, _, rfl⟩

theorem outputsMoved_port {s : State} (p : HostPort) (t : State) :
    OutputsMoved s t → OutputsMoved s { t with port := p } := by
  rintro ⟨_, _, rfl⟩
  exact ⟨_, _, rfl⟩

theorem outputsMoved_out {s : State} (k : Stn) (f : OutState → OutState) (t : State) :
    OutputsMoved s t → OutputsMoved s (updOut k f t) := by
  rintro ⟨_, _, rfl⟩
  exact ⟨_, _, rfl⟩

theorem writesMoved_port {s : State} (p : HostPort) (t : State) :
    WritesMoved s t → WritesMoved s { t with port := p } := by
  rintro ⟨_, _, _, rfl⟩
  exact ⟨_, _, _, rfl⟩

theorem writesMoved_image (s : State) : Image (WritesMoved s) where
  points _ _ _ := by
    rintro ⟨_, _, _, rfl⟩
    exact ⟨_, _, _, rfl⟩
  out _ _ _ _ := by
    rintro ⟨_, _, _, rfl⟩
    exact ⟨_, _, _, rfl⟩
  notice _ _ _ h := by
    rw [notice_eq]
    exact writesMoved_port _ _ h

theorem lampsMoved_port {s : State} (p : HostPort) (t : State) :
    LampsMoved s t → LampsMoved s { t with port := p } := by
  rintro ⟨_, _, _, _, rfl⟩
  exact ⟨_, _, _, _, rfl⟩

theorem lampsMoved_image (s : State) : Image (LampsMoved s) where
  points _ _ _ := by
    rintro ⟨_, _, _, _, rfl⟩
    exact ⟨_, _, _, _, rfl⟩
  out _ _ _ _ := by
    rintro ⟨_, _, _, _, rfl⟩
    exact ⟨_, _, _, _, rfl⟩
  notice _ _ _ h := by
    rw [notice_eq]
    exact lampsMoved_port _ _ h

theorem lampsMoved_lamps {s : State} (x : List LampRec) (t : State) :
    LampsMoved s t → LampsMoved s { t with lampLines := x } := by
  rintro ⟨_, _, _, _, rfl⟩
  exact ⟨_, _, _, _, rfl⟩

/-- A predicate that any port satisfies is closed under replies. -/
theorem answered_of_port {Q : State → Prop} (hport : ∀ p t, Q t → Q { t with port := p }) : Answered Q Q where
  reply _ _ _ _ _ := hport _ _

theorem quickReply_moves (code tag : Byte) (answer : State → Status × List Byte) (s : State) :
    PortMoved s (quickReply code tag answer s) :=
  takeRequest_frame portMoved_port (fun _ => (answered_of_port portMoved_port).reply _ _ _ _ _) ⟨_, rfl⟩

theorem hubStatus_moves {s : State} (tag : Byte) (payload : List Byte) (t : State) (h : PortMoved s t) :
    PortMoved s (hubStatus tag payload t) := by
  have hreply := (answered_of_port (portMoved_port (s := s))).reply
  unfold hubStatus
  split
  · split
    · exact hreply _ _ _ _ _ h
    · refine hreply _ _ _ _ _ ?_
      split
      · exact portMoved_port _ _ h
      · exact h
  · exact hreply _ _ _ _ _ h

/-- Settles O18: each block's own handlers, in the predicate that leaves only their part open. -/
theorem readAndPointRequestsFrame : Obligations.ReadAndPointRequestsFrame := by
  intro tag payload s t
  refine ⟨fun c hc he => ?_, fun c hc he => ?_, fun he => ?_, fun he => ?_, fun he => ?_⟩
  · have hmoved : PortMoved s t := by
      simp only [List.mem_cons, List.not_mem_nil, or_false] at hc
      rcases hc with rfl | rfl | rfl | rfl | rfl | rfl | rfl | rfl | rfl <;> cases he
      case inr.inl => exact takeRequest_frame portMoved_port (hubStatus_moves tag payload) ⟨_, rfl⟩
      all_goals exact quickReply_moves _ _ _ _
    obtain ⟨_, rfl⟩ := hmoved
    rfl
  · have hmoved : PointsMoved s t := by
      have hreply := answered_of_port (pointsMoved_port (s := s))
      have hpoints : ∀ t pts, pts.length = t.points.length → PointsMoved s t → PointsMoved s { t with points := pts } :=
        fun _ _ _ => pointsMoved_points _ _
      simp only [List.mem_cons, List.not_mem_nil, or_false] at hc
      rcases hc with rfl | rfl | rfl <;> cases he
      · exact takeRequest_frame pointsMoved_port (pointsRead_handles hreply hpoints tag payload) ⟨_, _, rfl⟩
      · exact takeRequest_frame pointsMoved_port (changesClear_handles hreply hpoints tag payload) ⟨_, _, rfl⟩
      · exact takeRequest_frame pointsMoved_port (pointNotify_handles hreply hpoints tag payload) ⟨_, _, rfl⟩
    obtain ⟨_, _, rfl⟩ := hmoved
    rfl
  · cases he
    have hmoved : OutputsMoved s (pointFenceRequest tag payload s) :=
      takeRequest_frame outputsMoved_port
        (pointFence_handles (answered_of_port outputsMoved_port) outputsMoved_out tag payload) ⟨_, _, rfl⟩
    obtain ⟨_, _, hmoved⟩ := hmoved
    rw [hmoved]
  · cases he
    have hmoved : WritesMoved s (rawWriteRequest tag payload s) :=
      takeRequest_frame writesMoved_port
        (rawWrite_handles (answered_of_port writesMoved_port) (writesMoved_image s) tag payload) ⟨_, _, _, rfl⟩
    obtain ⟨_, _, _, hmoved⟩ := hmoved
    rw [hmoved]
  · cases he
    have hmoved : LampsMoved s (pointWriteRequest tag payload s) :=
      takeRequest_frame lampsMoved_port
        (pointWrite_handles (answered_of_port lampsMoved_port) (lampsMoved_image s) lampsMoved_lamps tag payload)
        ⟨_, _, _, _, rfl⟩
    obtain ⟨_, _, _, _, hmoved⟩ := hmoved
    rw [hmoved]

end Sys2Proof.Proofs
end

section
/-! Requests on settings, the store, profiles, transfers, point flags and pending lists: each clause is an equation of
the request's handler in the state that holds its entry (R40, R50 to R54, R80, R81, R86 to R88, R97, R99, R202 to
R205). -/

namespace Sys2Proof.Proofs

open Sys2Proof Sys2Proof.Machine Sys2Proof.Safety Sys2Proof.Laws

/-! ### SETTINGS_SET refused, and the ranges (R202) -/

section Refused

variable {tag : Byte} {payload : List Byte} {s : State}

theorem settingsSet_malformed (h : wellFormedItems payload = none) :
    settingsSet tag payload s = replyBytes 5 tag .badArg [] s := by
  rw [settingsSet, h]

theorem settingsSet_unknown {items : List Item} (h : wellFormedItems payload = some items)
    (hknown : items.all knownValue = false) : settingsSet tag payload s = replyBytes 5 tag .badArg [] s := by
  rw [settingsSet, h]
  simp [hknown]

theorem settingsSet_budget {items : List Item} {l : Line} (h : wellFormedItems payload = some items)
    (hknown : items.all knownValue = true) (hfit : lineFits l (items.map clampItem) s = false) :
    settingsSet tag payload s = replyBytes 5 tag .budget [] s := by
  have hboth : (lineFits .s (items.map clampItem) s && lineFits .c (items.map clampItem) s) = false := by
    cases l <;> simp [hfit]
  rw [settingsSet, h]
  simp [hknown, hboth]

theorem settingsSet_applied {items : List Item} (h : wellFormedItems payload = some items)
    (hknown : items.all knownValue = true) (hs : lineFits .s (items.map clampItem) s = true)
    (hc : lineFits .c (items.map clampItem) s = true) :
    settingsSet tag payload s =
      settleChange (replyBytes 5 tag .ok (byteOf items.length :: (items.map clampItem).flatMap itemBytes)
        (applySettings (items.map clampItem) s)) := by
  rw [settingsSet, h]
  simp [hknown, hs, hc]

end Refused

/-- Settles O28: the refusals in their order, and the clamp setting by setting. -/
theorem settingsRefusedOrClamped : Obligations.SettingsRefusedOrClamped := by
  refine ⟨fun s tag payload h => ⟨fun hform => next_handle h (settingsSet_malformed hform),
    fun items hform hknown => next_handle h (settingsSet_unknown hform hknown),
    fun items l hform hknown hfit => next_handle h (settingsSet_budget (l := l) hform hknown hfit)⟩, fun n v hn => ?_⟩
  refine ⟨rfl, ?_, ?_, ?_, ?_, ?_, ?_, ?_, fun h10 h17 => ?_, fun h18 => ?_⟩
  · rintro (rfl | rfl) <;> rfl
  · rintro (rfl | rfl) <;> rfl
  · rintro (rfl | rfl) <;> rfl
  · rintro rfl
    rfl
  · rintro rfl
    rfl
  · rintro rfl
    rfl
  · rintro rfl
    exact Nat.zero_max _
  · interval_cases n <;> rfl
  · interval_cases n <;> rfl

/-! ### SETTINGS_SET applied (R202, R203) -/

theorem settleChange_of_steady {s : State} (h : s.hub.change = none) : settleChange s = s := by
  simp [settleChange, h]

theorem applyItem_line (w : Settings) (i : Item) : (applyItem w i).line = w.line := by
  unfold applyItem
  split <;> rfl

theorem foldl_applyItem_line (items : List Item) : ∀ w : Settings, (items.foldl applyItem w).line = w.line := by
  induction items with
  | nil => exact fun _ => rfl
  | cons i items ih => exact fun w => (ih _).trans (applyItem_line w i)

theorem namesLine_clamped (l : Line) (items : List Item) : namesLine l (items.map clampItem) = namesLine l items := by
  simp only [namesLine, List.any_map]
  rfl

/-- What a line's items ask for depends on the line's own engine alone. -/
theorem requestedLine_congr {l : Line} {s t : State} (items : List Item) (h : t.lines.get l = s.lines.get l) :
    requestedLine l items t = requestedLine l items s := by
  rw [requestedLine, requestedLine, h]

/-- A line's engine with the settings that the request's items ask for, if they name the line. -/
def awaitingLine (l : Line) (items : List Item) (s : State) (e : LineEngine) : LineEngine :=
  if namesLine l items then { e with awaiting := some (requestedLine l items s) } else e

/-- A line's settings in the working settings after the request. -/
def workingLine (l : Line) (items : List Item) (s : State) (ls : LineSettings) : LineSettings :=
  if namesLine l items then requestedLine l items s else ls

theorem acceptLine_lines (l : Line) (items : List Item) (s : State) :
    (acceptLine l items s).lines = s.lines.set l (awaitingLine l items s (s.lines.get l)) := by
  unfold acceptLine awaitingLine
  split <;> simp

theorem acceptLine_store (l : Line) (items : List Item) (s : State) :
    (acceptLine l items s).store = { s.store with working := { s.store.working with
      line := s.store.working.line.set l (workingLine l items s (s.store.working.line.get l)) } } := by
  unfold acceptLine workingLine
  split <;> simp

theorem acceptLines_lines (items : List Item) (s : State) (l : Line) :
    (acceptLine .c items (acceptLine .s items s)).lines.get l = awaitingLine l items s (s.lines.get l) := by
  have hother : (acceptLine .s items s).lines.get .c = s.lines.get .c := by
    rw [acceptLine_lines]
    rfl
  have hreq : awaitingLine .c items (acceptLine .s items s) = awaitingLine .c items s := by
    funext e
    rw [awaitingLine, awaitingLine, requestedLine_congr items hother]
  rw [acceptLine_lines, hreq, hother, acceptLine_lines]
  cases l <;> rfl

theorem acceptLines_store (items : List Item) (s : State) :
    (acceptLine .c items (acceptLine .s items s)).store = { s.store with working := { s.store.working with
      line := ⟨workingLine .s items s s.store.working.line.s, workingLine .c items s s.store.working.line.c⟩ } } := by
  have hother : (acceptLine .s items s).lines.get .c = s.lines.get .c := by
    rw [acceptLine_lines]
    rfl
  have hreq : workingLine .c items (acceptLine .s items s) = workingLine .c items s := by
    funext ls
    rw [workingLine, workingLine, requestedLine_congr items hother]
  rw [acceptLine_store, hreq, acceptLine_store]
  rfl

/-- The working settings that a request leaves (R202). -/
def settingsApplied (items : List Item) (s : State) : Settings :=
  { items.foldl applyItem s.store.working with
    line := ⟨workingLine .s items s s.store.working.line.s, workingLine .c items s s.store.working.line.c⟩ }

/-- The lines, each with the settings that the request asks of it. -/
def linesApplied (items : List Item) (s : State) : ByLine LineEngine :=
  ⟨awaitingLine .s items s s.lines.s, awaitingLine .c items s s.lines.c⟩

/-- What an accepted request does but for plug_used: lines, working settings and the silence timer. -/
theorem applySettings_eq (items : List Item) (s : State) :
    applySettings items s = applyPlugUsed items (restartSilence { s with
      lines := linesApplied items s
      store := { s.store with working := settingsApplied items s } }) := by
  set u : State := { s with store := { s.store with working := items.foldl applyItem s.store.working } } with hu
  have hlines : (acceptLine .c items (acceptLine .s items u)).lines = linesApplied items s := by
    have hget := acceptLines_lines items u
    rw [linesApplied]
    generalize (acceptLine .c items (acceptLine .s items u)).lines = x at hget ⊢
    obtain ⟨xs, xc⟩ := x
    exact congrArg₂ ByLine.mk (hget .s) (hget .c)
  have hstore : (acceptLine .c items (acceptLine .s items u)).store =
      { s.store with working := settingsApplied items s } := by
    rw [acceptLines_store, hu, settingsApplied]
    simp only [foldl_applyItem_line]
    rfl
  have hu' : acceptLine .c items (acceptLine .s items u) =
      { s with lines := linesApplied items s, store := { s.store with working := settingsApplied items s } } := by
    rw [← hlines, ← hstore, acceptLine_eq .c, acceptLine_eq .s]
  show applyPlugUsed items (restartSilence (acceptLine .c items (acceptLine .s items u))) = _
  rw [hu']

theorem applyPlugUsed_other {items : List Item} (h : ∀ i ∈ items, i.1 ≠ 18) (s : State) :
    applyPlugUsed items s = s := by
  have hnone : items.find? (fun i => i.1 == 18) = none := by simpa using h
  rw [applyPlugUsed, hnone]

/-- Settles O26. -/
theorem settingsSetApplies : Obligations.SettingsSetApplies := by
  intro s tag payload items h hform hknown hplug hs hc hsteady
  have hplug' : ∀ i ∈ items.map clampItem, i.1 ≠ 18 := by
    intro i hi
    obtain ⟨j, hj, rfl⟩ := List.mem_map.1 hi
    exact hplug j hj
  have hfit : ∀ l, lineFits l (items.map clampItem) (acceptRequest 5 tag s) = lineFits l (items.map clampItem) s :=
    fun _ => rfl
  have happlied : applySettings (items.map clampItem) (acceptRequest 5 tag s) =
      restartSilence { acceptRequest 5 tag s with
        lines := linesApplied (items.map clampItem) s
        store := { s.store with working := settingsApplied (items.map clampItem) s } } := by
    rw [applySettings_eq, applyPlugUsed_other hplug']
    rfl
  have hset := settingsSet_applied (tag := tag) (s := acceptRequest 5 tag s) hform hknown (by rw [hfit, hs])
    (by rw [hfit, hc])
  rw [happlied, settleChange_of_steady (by exact hsteady)] at hset
  refine ⟨_, next_handle h hset, fun l => ?_, fun l => ?_, rfl, rfl, rfl, rfl, rfl, rfl, rfl⟩
  · rw [← namesLine_clamped l items]
    cases l <;> rfl
  · rw [← namesLine_clamped l items]
    cases l <;> rfl

/-! ### The store (R204, R205) -/

section Store

variable {tag : Byte} {s : State}

theorem storeSave_free (h : s.store.save = none) :
    storeSave tag [] s = { s with store := { s.store with save := some ⟨⟨s.store.working, s.profiles⟩, tag⟩ } } := by
  simp [storeSave, h]

theorem storeSave_busy (h : s.store.save.isSome = true) : storeSave tag [] s = replyBytes 7 tag .busy [] s := by
  simp [storeSave, h]

/-- The state in which a write that was verified, or failed, leaves the store. -/
def writeEnded (verified : Bool) (v : Save) (s : State) : State :=
  if verified then { s with store := { s.store with image := some v.snapshot, invalid := false, save := none } }
  else { s with store := { s.store with image := none, invalid := true, save := none } }

theorem storeWriteEnd_saving {v : Save} (verified : Bool) (h : s.store.save = some v) :
    storeWriteEnd verified s =
      replyBytes 7 v.tag (if verified then .ok else .storeFailed) [] (writeEnded verified v s) := by
  rw [storeWriteEnd, h]
  cases verified <;> rfl

theorem exec_storeWriteEnd {v : Save} (verified : Bool) (hheld : s.held = false) (h : s.store.save = some v) :
    exec (.storeWriteEnd verified) s =
      .next (replyBytes 7 v.tag (if verified then .ok else .storeFailed) [] (writeEnded verified v s)) :=
  congrArg Host.Outcome.next ((unlessHeld_of_high hheld).trans (storeWriteEnd_saving verified h))

end Store

/-- Settles O29: the write's end, and the reset that reads the image it leaves. -/
theorem storeSaveAndLoad : Obligations.StoreSaveAndLoad := by
  refine ⟨⟨fun s tag h => ⟨fun hfree => next_handle h (storeSave_free hfree),
    fun hbusy => next_handle h (storeSave_busy hbusy)⟩, fun s v hheld hsave =>
      ⟨exec_storeWriteEnd true hheld hsave, exec_storeWriteEnd false hheld hsave⟩⟩,
    fun s v p b l hheld hsave => ⟨⟨_, _, exec_storeWriteEnd true hheld hsave, rfl, ?_⟩,
      ⟨_, _, exec_storeWriteEnd false hheld hsave, rfl, ?_⟩⟩⟩
  · exact ⟨rfl, rfl, rfl, rfl, rfl⟩
  · exact ⟨rfl, rfl, rfl, rfl, rfl⟩

/-! ### The profile table (R50 to R54) -/

section Profiles

variable {tag : Byte} {payload : List Byte} {s : State}

theorem inUse_of_users {t : Nat} (h : usersOf s (.table t) ≠ []) : inUse s t = true := by simpa [inUse] using h

theorem inUse_of_none {t : Nat} (h : usersOf s (.table t) = []) : inUse s t = false := by simp [inUse, h]

theorem profilePut_added {p : Profile} (h : readProfile payload = .ok p) (hnew : tableProfile s p.typeCode = none)
    (hroom : s.profiles.length < 12) :
    profilePut tag payload s = replyBytes 16 tag .ok [0, byteOf (insertProfile p s.profiles).length]
      { s with profiles := insertProfile p s.profiles } := by
  simp [profilePut, h, hnew, profileLimit, Nat.not_le.2 hroom]

theorem profilePut_full {p : Profile} (h : readProfile payload = .ok p) (hnew : tableProfile s p.typeCode = none)
    (hfull : 12 ≤ s.profiles.length) : profilePut tag payload s = replyBytes 16 tag .noRoom [] s := by
  simp [profilePut, h, hnew, profileLimit, hfull]

theorem profilePut_replaced {p : Profile} (h : readProfile payload = .ok p)
    (hheld : (tableProfile s p.typeCode).isSome = true) (hfree : inUse s p.typeCode = false) :
    profilePut tag payload s = replyBytes 16 tag .ok [1, byteOf (insertProfile p s.profiles).length]
      { s with profiles := insertProfile p s.profiles } := by
  simp [profilePut, h, hheld, hfree]

theorem profilePut_inUse {p : Profile} (h : readProfile payload = .ok p)
    (hheld : (tableProfile s p.typeCode).isSome = true) (hused : inUse s p.typeCode = true) :
    profilePut tag payload s = replyBytes 16 tag .inUse [] s := by
  simp [profilePut, h, hheld, hused]

theorem profilePut_bad {field element : Nat} (h : readProfile payload = .error (.badProfile field element)) :
    profilePut tag payload s = replyBytes 16 tag .badProfile [byteOf field, byteOf element] s := by
  simp [profilePut, h]

variable {hi lo : Byte}

theorem profileDrop_missing (h : tableProfile s (u16 hi lo) = none) :
    profileDrop tag [hi, lo] s = replyBytes 18 tag .notFound [] s := by
  simp [profileDrop, h]

theorem profileDrop_inUse (h : (tableProfile s (u16 hi lo)).isSome = true) (hused : inUse s (u16 hi lo) = true) :
    profileDrop tag [hi, lo] s = replyBytes 18 tag .inUse [] s := by
  simp [profileDrop, Option.isNone_eq_false_iff.2 h, hused]

theorem profileDrop_dropped (h : (tableProfile s (u16 hi lo)).isSome = true) (hfree : inUse s (u16 hi lo) = false) :
    profileDrop tag [hi, lo] s = replyBytes 18 tag .ok
      [byteOf (s.profiles.filter (fun p => p.typeCode != u16 hi lo)).length]
      { s with profiles := s.profiles.filter (fun p => p.typeCode != u16 hi lo) } := by
  simp [profileDrop, Option.isNone_eq_false_iff.2 h, hfree]

end Profiles

/-- Settles O31. -/
theorem profilePutAndDrop : Obligations.ProfilePutAndDrop := by
  refine fun s tag h => ⟨fun payload p hp => ⟨fun hnew hroom => next_handle h (profilePut_added hp hnew hroom),
      fun hnew hfull => next_handle h (profilePut_full hp hnew hfull),
      fun hheld hfree => next_handle h (profilePut_replaced hp hheld (inUse_of_none (s := s) hfree)),
      fun hheld hused => next_handle h (profilePut_inUse hp hheld (inUse_of_users (s := s) hused))⟩,
    fun payload field element hp => next_handle h (profilePut_bad hp),
    fun hi lo => ⟨fun hmissing => next_handle h (profileDrop_missing hmissing),
      fun hheld hused => next_handle h (profileDrop_inUse hheld (inUse_of_users (s := s) hused)),
      fun hheld hfree => next_handle h (profileDrop_dropped hheld (inUse_of_none (s := s) hfree))⟩⟩

/-! ### PARAM_READ and PARAM_WRITE (R40) -/

section Transfers

variable {k : Stn} {p1 p0 c : Byte} {data : List Byte}

theorem readParamRequest_code (kind : TransferKind) (h1 : 1 ≤ c.toNat) (h32 : c.toNat ≤ 32)
    (hdata : data.length = match kind with | .read => 0 | .write => c.toNat) :
    readParamRequest kind ([lineCode (lineOf k), byteOf (addressOf k), p1, p0, c] ++ data) =
      some ⟨k, u16 p1 p0, c.toNat, data⟩ := by
  cases kind <;> simp_all [readParamRequest]

variable {kind : TransferKind} {tag : Byte} {payload : List Byte} {q : ParamRequest} {s : State}
  (hq : readParamRequest kind payload = some q)

include hq

theorem paramStart_changing (h : s.hub.change.isSome = true) :
    paramStart kind tag payload s = replyBytes (transferCode kind) tag .busy [] s := by
  simp [paramStart, hq, h]

theorem paramStart_offline (hsteady : s.hub.change = none) (h : isOnline (s.stations.get q.stn).state = false) :
    paramStart kind tag payload s = replyBytes (transferCode kind) tag .notOnline [] s := by
  simp [paramStart, hq, hsteady, stateOf, h]

theorem paramStart_accepted (hsteady : s.hub.change = none) (h : isOnline (s.stations.get q.stn).state = true)
    (hfree : (s.stations.get q.stn).transfer = none) :
    paramStart kind tag payload s =
      { s with stations := s.stations.set q.stn { s.stations.get q.stn with
          transfer := some ⟨kind, q.paramAddr, q.count, q.data, tag, 0⟩ } } := by
  simp [paramStart, hq, hsteady, stateOf, h, hfree, updStation]

end Transfers

/-- Settles O46. -/
theorem paramRequestBecomesTransfer : Obligations.ParamRequestBecomesTransfer := by
  intro s tag k p1 p0 c data h h1 h32 hdata rd wr hrd hwr
  have hread := readParamRequest_code (k := k) (p1 := p1) (p0 := p0) (data := []) .read h1 h32 rfl
  have hwrite := readParamRequest_code (k := k) (p1 := p1) (p0 := p0) .write h1 h32 hdata
  subst hrd hwr
  refine ⟨fun hchange => ⟨?_, ?_⟩, fun hsteady hoff => ⟨?_, ?_⟩, fun hsteady hon hfree => ⟨?_, ?_⟩⟩
  · exact next_handle h (paramStart_changing hread hchange)
  · exact next_handle h (paramStart_changing hwrite hchange)
  · exact next_handle h (paramStart_offline hread hsteady hoff)
  · exact next_handle h (paramStart_offline hwrite hsteady hoff)
  · exact next_handle h (paramStart_accepted hread hsteady hon hfree)
  · exact next_handle h (paramStart_accepted hwrite hsteady hon hfree)

/-! ### POINTS_READ and POINT_NOTIFY (R80, R81) -/

section Points

variable {tag first count : Byte} {s : State}

/-- A POINTS_READ of a range within the image: the count of the whole image is read ahead of any clear. -/
theorem pointsRead_range (h1 : 1 ≤ count.toNat) (h64 : count.toNat ≤ 64) (h256 : first.toNat + count.toNat ≤ 256)
    (changes clear : Bool) :
    pointsRead tag [first, count, bit changes, bit clear] s =
      replyBytes 48 tag .ok (be16 (changedCount s.points) ++ [first, count]
        ++ if changes then flagBytes ((count.toNat + 7) / 8) (pointRange s first.toNat count.toNat)
          else (pointRange s first.toNat count.toNat).flatMap pointBytes)
        (if clear then clearFlags first.toNat count.toNat s else s) := by
  have hbits : ∀ b, (bit b).toNat ≤ 1 := by decide
  rw [pointsRead]
  simp only [h1, h64, h256, hbits, and_self, if_true]
  cases changes <;> cases clear <;> rfl

theorem pointNotify_unmapped {i : Byte} {flag : Bool} (h : (pointAt s i.toNat).quality = .unmapped) :
    pointNotify tag [i, bit flag] s = replyBytes 50 tag .notFound [] s := by
  simp [pointNotify, h]

theorem pointNotify_mapped {i : Byte} {flag : Bool} (h : (pointAt s i.toNat).quality ≠ .unmapped) :
    pointNotify tag [i, bit flag] s = replyBytes 50 tag .ok [bit (pointAt s i.toNat).notify]
      { s with points := s.points.set i.toNat { pointAt s i.toNat with notify := flag } } := by
  rw [pointNotify, boolOfByte_bit]
  simp only [h, if_false]
  rfl

end Points

/-- Settles O32. -/
theorem pointsReadAndNotify : Obligations.PointsReadAndNotify := by
  refine ⟨fun s tag first count clear h h1 h64 h256 u hu => ?_, fun s tag i flag h =>
    ⟨fun hq => next_handle h (pointNotify_unmapped hq), fun hq => next_handle h (pointNotify_mapped hq)⟩⟩
  have hclear : (if clear then clearFlags first.toNat count.toNat (acceptRequest 48 tag s)
      else acceptRequest 48 tag s) = u := by
    rw [hu]
    rfl
  have hread := fun changes => pointsRead_range (tag := tag) (s := acceptRequest 48 tag s) h1 h64 h256 changes clear
  rw [hclear] at hread
  exact ⟨next_handle h (hread false), next_handle h (hread true)⟩

/-! ### POINT_FENCE (R88, R99) -/

section Fences

variable {tag : Byte} {k : Stn} {s : State}

theorem fenceNeeded_eq_false {o : OutState}
    (h : (o.list = [] ∧ o.inFlight = none) ∨ o.list.getLast? = some .fence) : fenceNeeded o = false := by
  rcases h with ⟨hlist, hflight⟩ | hlast
  · simp [fenceNeeded, hlist, hflight]
  · simp [fenceNeeded, hlast]

theorem fenceNeeded_eq_true {o : OutState} (h : ¬ (o.list = [] ∧ o.inFlight = none))
    (hlast : o.list.getLast? ≠ some .fence) : fenceNeeded o = true := by
  have hbusy : o.list ≠ [] ∨ o.inFlight.isSome = true :=
    (not_and_or.1 h).imp_right Option.isSome_iff_ne_none.2
  simpa [fenceNeeded, hlast] using hbusy

theorem pointFence_offline (h : isScanned (s.stations.get k).state = false) :
    pointFence tag [lineCode (lineOf k), byteOf (addressOf k)] s = replyBytes 52 tag .notOnline [] s := by
  simp [pointFence, stateOf, h]

theorem pointFence_notNeeded (h : isScanned (s.stations.get k).state = true)
    (hfence : fenceNeeded (s.outputs.get k) = false) :
    pointFence tag [lineCode (lineOf k), byteOf (addressOf k)] s =
      replyBytes 52 tag .ok [1, byteOf (s.outputs.get k).list.length] s := by
  simp [pointFence, stateOf, outOf, h, hfence]

theorem putEntry_fence {o : OutState} (h : fenceNeeded o = true) :
    putEntry .fence o = { o with list := o.list ++ [.fence] } := by
  simp [putEntry, h]

theorem pointFence_needed (h : isScanned (s.stations.get k).state = true)
    (hfence : fenceNeeded (s.outputs.get k) = true) :
    pointFence tag [lineCode (lineOf k), byteOf (addressOf k)] s =
      if 14 ≤ (s.outputs.get k).list.length then replyBytes 52 tag .queueFull [] s
      else replyBytes 52 tag .ok [0, byteOf ((s.outputs.get k).list.length + 1)]
        { s with outputs := s.outputs.set k { s.outputs.get k with
            list := (s.outputs.get k).list ++ [.fence] } } := by
  simp [pointFence, stateOf, outOf, h, hfence, ordinaryRoom, updOut, putEntry_fence]

end Fences

/-- Settles O36. -/
theorem pointFenceAddsFence : Obligations.PointFenceAddsFence :=
  fun _ _ _ h => ⟨fun hoff => next_handle h (pointFence_offline hoff),
    fun hon hno => next_handle h (pointFence_notNeeded hon (fenceNeeded_eq_false hno)),
    fun hon hbusy hlast => next_handle h (pointFence_needed hon (fenceNeeded_eq_true hbusy hlast))⟩

/-! ### RAW_WRITE (R86, R97) -/

theorem combineRev_head {j : Nat} {v : Word} {l l' : List Entry} (h : combineRev j v l = some l') :
    ∃ i w rest, l' = .write i w :: rest := by
  unfold combineRev at h
  split at h
  · exact nomatch h
  · exact nomatch h
  · split at h
    · cases h
      exact ⟨_, _, _, rfl⟩
    · obtain ⟨rest, -, rfl⟩ := Option.map_eq_some_iff.1 h
      exact ⟨_, _, _, rfl⟩

/-- Behind a write the list ends in a write: its own, or the newest of those behind the last FENCE (R87). -/
theorem getLast?_putWrite (j : Nat) (v : Word) (list : List Entry) :
    ∃ i w, (putWrite j v list).getLast? = some (.write i w) := by
  unfold putWrite
  split
  · rename_i l h
    obtain ⟨l', h', rfl⟩ := Option.map_eq_some_iff.1 h
    obtain ⟨i, w, rest, rfl⟩ := combineRev_head h'
    exact ⟨i, w, by simp⟩
  · exact ⟨j, v, by simp⟩

/-- A FENCE is always needed behind a write. -/
theorem fenceNeeded_putEntry_write (j : Nat) (v : Word) (o : OutState) :
    fenceNeeded (putEntry (.write j v) o) = true := by
  obtain ⟨i, w, hlast⟩ := getLast?_putWrite j v o.list
  refine fenceNeeded_eq_true (fun ⟨hempty, _⟩ => ?_) ?_
  · have hnone : (putWrite j v o.list).getLast? = none := by
      rw [show putWrite j v o.list = [] from hempty]
      rfl
    simp [hlast] at hnone
  · show (putWrite j v o.list).getLast? ≠ _
    simp [hlast]

/-- Without a profile there is no window to report a write to. -/
theorem enterWrite_of_no_profile {k : Stn} {s : State} (j : Nat) (v : Word) (h : (s.stations.get k).profile = none) :
    enterWrite k j v s = updOut k (putEntry (.write j v)) s := by
  simp [enterWrite, reportWritten, profileOf, h]

/-- What a RAW_WRITE makes of its station's output record. -/
def rawEntered (j : Nat) (w : Word) (fence : Bool) (o : OutState) : OutState :=
  { o with list := putWrite j w o.list ++ (if fence then [.fence] else []), intended := o.intended.set j w }

theorem putEntry_write (j : Nat) (w : Word) (o : OutState) : putEntry (.write j w) o = rawEntered j w false o := by
  simp [putEntry, rawEntered]

theorem putEntry_fence_raw (j : Nat) (w : Word) (o : OutState) :
    putEntry .fence (rawEntered j w false o) = rawEntered j w true o := by
  have hneeded := fenceNeeded_putEntry_write j w o
  rw [putEntry_write] at hneeded
  rw [putEntry_fence hneeded]
  simp [rawEntered]

/-- The places that a RAW_WRITE takes, its FENCE included. -/
def rawPlaces (j : Nat) (fence : Bool) (o : OutState) : Nat := (if combines j o.list then 0 else 1) + fence.toNat

theorem rawRoom_iff (j : Nat) (fence : Bool) (o : OutState) :
    rawRoom j fence o = true ↔ rawPlaces j fence o = 0 ∨ o.list.length + rawPlaces j fence o ≤ 14 := by
  unfold rawRoom rawPlaces ordinaryRoom
  cases combines j o.list <;> cases fence <;> simp
  omega

section RawWrites

variable {tag j v1 v0 : Byte} {k : Stn} {fence : Bool} {s : State}

theorem readRawRequest_code :
    readRawRequest [lineCode (lineOf k), byteOf (addressOf k), j, v1, v0, bit fence] =
      some ⟨k, j.toNat, BitVec.ofNat 16 (u16 v1 v0), fence⟩ := by
  simp [readRawRequest]

theorem rawWrite_mode (h : s.hub.mode ≠ .commission) :
    rawWrite tag [lineCode (lineOf k), byteOf (addressOf k), j, v1, v0, bit fence] s =
      replyBytes 37 tag .mode [] s := by
  simp [rawWrite, readRawRequest_code, h]

variable (hmode : s.hub.mode = .commission) (hscanned : isScanned (s.stations.get k).state = true)
  (hout : j.toNat < reportedOutputs s k)

include hmode hscanned hout

theorem rawWrite_full (h : rawRoom j.toNat fence (s.outputs.get k) = false) :
    rawWrite tag [lineCode (lineOf k), byteOf (addressOf k), j, v1, v0, bit fence] s =
      replyBytes 37 tag .queueFull [] s := by
  simp [rawWrite, readRawRequest_code, hmode, stateOf, hscanned, Nat.not_le.2 hout, outOf, h]

theorem rawWrite_entered (hprofile : (s.stations.get k).profile = none)
    (h : rawRoom j.toNat fence (s.outputs.get k) = true) :
    rawWrite tag [lineCode (lineOf k), byteOf (addressOf k), j, v1, v0, bit fence] s =
      replyBytes 37 tag .ok [if combines j.toNat (s.outputs.get k).list then 1 else 0,
          byteOf (rawEntered j.toNat (BitVec.ofNat 16 (u16 v1 v0)) fence (s.outputs.get k)).list.length]
        { s with
          outputs := s.outputs.set k (rawEntered j.toNat (BitVec.ofNat 16 (u16 v1 v0)) fence (s.outputs.get k)) } := by
  rw [rawWrite, readRawRequest_code]
  simp only [hmode, stateOf, hscanned, Nat.not_le.2 hout, outOf, h, enterWrite_of_no_profile _ _ hprofile, writeOutcome]
  cases fence <;> simp [updOut, putEntry_write, putEntry_fence_raw] <;> rfl

end RawWrites

/-- Settles O47. -/
theorem rawWriteEntersList : Obligations.RawWriteEntersList := by
  intro s tag k j v1 v0 fence h c hc
  subst hc
  refine ⟨fun hmode => next_handle h (rawWrite_mode hmode),
    fun hmode hscanned hout hprofile room w entered hroom hw hentered => ?_⟩
  subst hw hentered
  have hplaces : room = rawPlaces j.toNat fence (s.outputs.get k) := hroom
  refine ⟨fun hfits => next_handle h (rawWrite_entered hmode hscanned hout hprofile ?_),
    fun hsome hfull => next_handle h (rawWrite_full hmode hscanned hout ?_)⟩
  · exact (rawRoom_iff _ _ _).2 (hplaces ▸ hfits)
  · show rawRoom j.toNat fence (s.outputs.get k) = false
    rw [← Bool.not_eq_true, rawRoom_iff]
    omega

end Sys2Proof.Proofs
end

section
/-! Control ownership (R123 to R136, R193, R198): what each update of a mark or an owner leaves, the claims of both
sources built from them, the losses of a source, and the start of a mode change. -/

namespace Sys2Proof.Proofs

open Sys2Proof Sys2Proof.Machine Sys2Proof.Safety Sys2Proof.Laws

/-! ### Marks -/

/-- An owner record without the mark of a source. -/
def unmarked (src : Source) (r : OwnerRec) : OwnerRec := { r with marks := r.marks.set src none }

/-- An owner record after a change to `new` (R124): the next generation and no mark. -/
def reowned (new : Owner) (r : OwnerRec) : OwnerRec := ⟨new, r.generation + 1, ⟨none, none⟩⟩

theorem setMark_owners (g : Group) (src : Source) (m : Option Mark) (s : State) :
    (setMark g src m s).owners =
      s.owners.set g { s.owners.get g with marks := (s.owners.get g).marks.set src m } := by
  cases src with
  | cab => exact (handCopy_frame _ _ _).2.2.1
  | remote => rfl

theorem setMark_frame (g : Group) (src : Source) (m : Option Mark) (s : State) :
    (setMark g src m s).ops = s.ops ∧ (setMark g src m s).results = s.results ∧
      (setMark g src m s).groups = s.groups := by
  cases src with
  | cab =>
    obtain ⟨hops, hresults, -, hgroups⟩ := handCopy_frame g (fun c => { c with cabMark := m.isSome })
      (updOwner g (fun r => { r with marks := r.marks.set .cab m }) s)
    exact ⟨hops, hresults, hgroups⟩
  | remote => exact ⟨rfl, rfl, rfl⟩

theorem setMark_permitPins (g : Group) (src : Source) (m : Option Mark) (s : State) :
    (setMark g src m s).permitPins = s.permitPins := by
  cases src with
  | cab => exact handCopy_keeps (panel_permitPins _) _ _ _ rfl
  | remote => rfl

theorem setMark_now (g : Group) (src : Source) (m : Option Mark) (s : State) : (setMark g src m s).now = s.now := by
  cases src with
  | cab => exact handCopy_keeps (inner_now _).toPanel _ _ _ rfl
  | remote => rfl

theorem removeMark_owners (g : Group) (src : Source) (s : State) :
    (removeMark g src s).owners = s.owners.set g (unmarked src (s.owners.get g)) := by
  unfold removeMark unmarked
  split
  · exact setMark_owners _ _ _ _
  · rename_i hnone
    have hmark : (s.owners.get g).marks.get src = none := by simpa using hnone
    have hset : (s.owners.get g).marks.set src none = (s.owners.get g).marks := by
      rw [← hmark, BySource.set_get]
    rw [hset, ByGroup.set_get]

theorem removeMark_ops (g : Group) (src : Source) (s : State) : (removeMark g src s).ops = s.ops := by
  unfold removeMark
  split
  · exact (setMark_frame _ _ _ _).1
  · rfl

/-- Where there is no mark nothing is removed, and REMOTE's removal reaches no other block. -/
theorem removeMark_remote (g : Group) (s : State) :
    removeMark g .remote s = { s with owners := s.owners.set g (unmarked .remote (s.owners.get g)) } := by
  rw [← removeMark_owners]
  unfold removeMark
  split <;> rfl

theorem clearMarks_owners (g : Group) (s : State) :
    (clearMarks g s).owners = s.owners.set g { s.owners.get g with marks := ⟨none, none⟩ } := by
  rw [clearMarks, removeMark_owners, removeMark_owners]
  simp [unmarked, BySource.set]

theorem clearMarks_ops (g : Group) (s : State) : (clearMarks g s).ops = s.ops := by
  rw [clearMarks, removeMark_ops, removeMark_ops]

/-! ### Losses and lapses -/

theorem ownerIs_iff (s : State) (g : Group) (src : Source) :
    ownerIs s g src = true ↔ (s.owners.get g).owner = ownerOfSource src := by
  unfold ownerIs
  cases (s.owners.get g).owner <;> cases src <;> simp [ownerOfSource]

theorem ownerIs_eq_false (s : State) (g : Group) (src : Source) :
    ownerIs s g src = false ↔ (s.owners.get g).owner ≠ ownerOfSource src := by
  rw [← Bool.not_eq_true, ownerIs_iff]

/-- What the loss of a source leaves of an owner record (R133, R134). -/
def lostSource (src : Source) (r : OwnerRec) : OwnerRec :=
  if r.owner = ownerOfSource src then reowned .none r else unmarked src r

theorem loseSource_owners (src : Source) (c : ClaimCause) (g : Group) (s : State) :
    (loseSource src c g s).owners = s.owners.set g (lostSource src (s.owners.get g)) := by
  unfold loseSource lostSource
  by_cases h : (s.owners.get g).owner = ownerOfSource src
  · rw [if_pos ((ownerIs_iff s g src).2 h), if_pos h]
    exact ownerChange_owners _ _ _ _ _
  · rw [if_neg (by simpa [ownerIs_iff] using h), if_neg h]
    exact removeMark_owners _ _ _

theorem loseSource_ops (src : Source) (c : ClaimCause) (g : Group) (s : State) :
    (loseSource src c g s).ops =
      if (s.owners.get g).owner = ownerOfSource src then s.ops.set g none else s.ops := by
  unfold loseSource
  by_cases h : (s.owners.get g).owner = ownerOfSource src
  · rw [if_pos ((ownerIs_iff s g src).2 h), if_pos h]
    exact ownerChange_ops _ _ _ _ _
  · rw [if_neg (by simpa [ownerIs_iff] using h), if_neg h]
    exact removeMark_ops _ _ _

/-- A source lost on both groups: what each group's record and operation become. -/
theorem loseSource_both (src : Source) (c : ClaimCause) (s : State) (g : Group) :
    (loseSource src c .b (loseSource src c .a s)).owners.get g = lostSource src (s.owners.get g) ∧
      ((s.owners.get g).owner = ownerOfSource src →
        (loseSource src c .b (loseSource src c .a s)).ops.get g = none) := by
  rw [loseSource_owners, loseSource_owners, loseSource_ops, loseSource_owners, loseSource_ops]
  cases g with
  | a =>
    refine ⟨rfl, fun h => ?_⟩
    rw [if_pos (c := (s.owners.get .a).owner = ownerOfSource src) h]
    split <;> rfl
  | b =>
    refine ⟨rfl, fun h => ?_⟩
    rw [if_pos (by exact h)]
    rfl

theorem hostSilence_running {s : State} {d : Nat} (h : s.port.silenceTimer = some d) :
    hostSilence s = hubHostSilent (hostSilent
      (updPort (fun p => { p with silent := true, silenceTimer := none }) (reachTime d s))) := by
  rw [hostSilence, h]

/-- Settles O16. -/
theorem hostSilenceLapsesRemote : Obligations.HostSilenceLapsesRemote := by
  intro s d hheld htimer
  refine ⟨_, congrArg Host.Outcome.next ((unlessHeld_of_high hheld).trans (hostSilence_running htimer)), ?_⟩
  set u := updPort (fun p => { p with silent := true, silenceTimer := none }) (reachTime d s) with hu
  have hcore : portCore (hubHostSilent (hostSilent u)).port = portCore u.port :=
    (notice_portCore _ _ _).trans (hostSilent_keeps (inner_portCore (portCore u.port)) u rfl)
  have hsilent : (hubHostSilent (hostSilent u)).port.silent = u.port.silent := (congrArg HostPort.silent hcore :)
  have hstopped : (hubHostSilent (hostSilent u)).port.silenceTimer = u.port.silenceTimer :=
    (congrArg HostPort.silenceTimer hcore :)
  refine ⟨hsilent, hstopped, fun g => ?_⟩
  obtain ⟨howner, hops⟩ := loseSource_both .remote .hostSilent u g
  rw [hubHostSilent, notice_owners, notice_ops]
  refine ⟨fun hremote => ⟨howner.trans (if_pos hremote), hops hremote⟩, fun hother => ?_⟩
  exact howner.trans (if_neg hother)

/-! ### Claims (R127 to R131) -/

theorem modeAllows_of {s : State} (hmode : s.hub.mode ≠ .commission) (hchange : s.hub.change = none) :
    modeAllows s = true := by simp [modeAllows, hmode, hchange]

theorem modeAllows_eq_false {s : State} (h : s.hub.mode = .commission ∨ s.hub.change.isSome = true) :
    modeAllows s = false := by
  rcases h with hmode | hchange
  · simp [modeAllows, hmode]
  · simp [modeAllows, Option.isNone_eq_false_iff.2 hchange]

theorem checkClaim_passes {s : State} {g : Group} {src : Source} (hmode : modeAllows s = true)
    (hcab : src = .cab → isOnline s.stations.c1.state = true) (hbound : (s.groups.get g).bound = true) :
    checkClaim g src s = none := by
  have honline : (src == .cab && !isOnline (stateOf s .c1)) = false := by
    cases src with
    | remote => rfl
    | cab =>
      have hstate : isOnline (stateOf s .c1) = true := hcab rfl
      simp [hstate]
  simp [checkClaim, hmode, honline, hbound]

theorem checkClaim_mode {s : State} (g : Group) (src : Source) (h : modeAllows s = false) :
    checkClaim g src s = some .mode := by
  simp [checkClaim, h]

theorem cabRefused_owners (g : Group) (q : CabRequest) (st : Status) (s : State) :
    (cabRefused g q st s).owners = s.owners := by
  rw [cabRefused, operationNotice, notice_owners]
  exact (storeResult_frame _ _ _ _).2.1

/-- A refusal is a failure, so no result held gives way to it less than it does. -/
theorem slotAfter_refused (held : Option OpResult) (q : CabRequest) (st : Status) :
    slotAfter held (.refused q st) = .refused q st := by
  cases held with
  | none => rfl
  | some h => simp [slotAfter, isFailure]

theorem cabRefused_slot (g : Group) (q : CabRequest) (st : Status) (s : State) :
    ((cabRefused g q st s).results.get g).get .cab = some (.refused q st) := by
  rw [cabRefused, operationNotice, notice_results, storeResult_slot, slotAfter_refused]

theorem claimRead_passes {tag : Byte} {g : Group} {s : State} (h : checkClaim g .remote s = none) :
    claimRead tag [groupCode g] s = replyBytes 65 tag .ok (claimReadReply g s) (claimReadTake g .remote s) := by
  rw [claimRead, groupPayload_groupCode]
  simp [h]

/-- Settles O48. -/
theorem claimReadMakesMark : Obligations.ClaimReadMakesMark := by
  intro s g hmode hchange hbound
  have hallows := modeAllows_of hmode hchange
  refine ⟨fun tag h => next_handle h ?_, fun hheld honline => ?_⟩
  · exact claimRead_passes (checkClaim_passes (s := acceptRequest 65 tag s) hallows nofun hbound)
  · have htake : cabClaimRead g s = claimReadTake g .cab s := by
      simp [cabClaimRead, checkClaim_passes (src := .cab) hallows (fun _ => honline) hbound]
    exact ⟨_, congrArg Host.Outcome.next ((unlessHeld_of_high hheld).trans htake), setMark_owners _ _ _ _,
      (setMark_frame _ _ _ _).2.1⟩

section ClaimSets

variable {g : Group} {src : Source} {s : State}

theorem markFresh_of {m : Mark} (hmark : (s.owners.get g).marks.get src = some m)
    (hgen : m.generation = (s.owners.get g).generation) : markFresh g src s = true := by
  simp [markFresh, hmark, hgen]

theorem claimSetTake_owner (hfresh : markFresh g src s = true) (hown : ownerIs s g src = true) :
    claimSetTake g src s = (removeMark g src s, true) := by
  simp [claimSetTake, hfresh, hown]

theorem claimSetTake_new (hfresh : markFresh g src s = true) (hown : ownerIs s g src = false) :
    claimSetTake g src s = (ownerChange g (ownerOfSource src) .set .owner s, true) := by
  simp [claimSetTake, hfresh, hown]

/-- Without a mark a CLAIM_SET does nothing but fail. -/
theorem claimSetTake_unmarked (h : (s.owners.get g).marks.get src = none) : claimSetTake g src s = (s, false) := by
  simp [claimSetTake, markFresh, h, removeMark]

theorem claimSet_passes {tag : Byte} {t : State} (hcheck : checkClaim g .remote s = none)
    (htake : claimSetTake g .remote s = (t, true)) :
    claimSet tag [groupCode g] s = replyBytes 66 tag .ok (ownerReport g t) t := by
  rw [claimSet, groupPayload_groupCode]
  simp [hcheck, htake]

theorem claimSet_stale {tag : Byte} {t : State} (hcheck : checkClaim g .remote s = none)
    (htake : claimSetTake g .remote s = (t, false)) :
    claimSet tag [groupCode g] s = replyBytes 66 tag .staleClaim [] t := by
  rw [claimSet, groupPayload_groupCode]
  simp [hcheck, htake]

theorem claimRelease_owner {tag : Byte} (h : ownerIs s g .remote = true) :
    claimRelease tag [groupCode g] s =
      replyBytes 67 tag .ok (be16 ((claimReleaseTake g s).owners.get g).generation.toNat) (claimReleaseTake g s) := by
  rw [claimRelease, groupPayload_groupCode]
  simp [h]

theorem claimRelease_other {tag : Byte} (h : ownerIs s g .remote = false) :
    claimRelease tag [groupCode g] s = replyBytes 67 tag .notOwner [] s := by
  rw [claimRelease, groupPayload_groupCode]
  simp [h]

end ClaimSets

/-- The reply is the last message where the handler ends with it. -/
theorem getLast?_replyBytes (code tag : Byte) (st : Status) (body : List Byte) (s : State) :
    (replyBytes code tag st body s).port.fifo.getLast? =
      some ⟨.countedReply, code, tag, statusCode st :: body, false, false⟩ := by simp

theorem ownerChange_get (g : Group) (new : Owner) (c : ClaimCause) (a : AbortReason) (s : State) :
    (ownerChange g new c a s).owners.get g = reowned new (s.owners.get g) := by
  rw [ownerChange_owners, ByGroup.get_set_self]
  rfl

theorem ownerChange_ops_get (g : Group) (new : Owner) (c : ClaimCause) (a : AbortReason) (s : State) :
    (ownerChange g new c a s).ops.get g = none := by
  rw [ownerChange_ops, ByGroup.get_set_self]

/-- Settles O49. -/
theorem claimSetAndReleaseChangeOwner : Obligations.ClaimSetAndReleaseChangeOwner := by
  intro s g tag h
  refine ⟨fun hmode hchange hbound => ⟨fun m hmark hgen => ⟨fun hother => ?_, fun hown => ?_⟩, fun hnone => ?_⟩,
    fun hown => ?_, fun hother => ?_⟩
  · have hcheck : checkClaim g .remote (acceptRequest 66 tag s) = none :=
      checkClaim_passes (modeAllows_of hmode hchange) nofun hbound
    have htake := claimSetTake_new (g := g) (src := .remote) (s := acceptRequest 66 tag s) (markFresh_of hmark hgen)
      ((ownerIs_eq_false _ g .remote).2 hother)
    refine ⟨_, next_handle h (claimSet_passes hcheck htake), ownerChange_owners _ _ _ _ _,
      ownerChange_ops_get _ _ _ _ _, ?_⟩
    rw [getLast?_replyBytes, ownerReport, ownerChange_get]
    rfl
  · have hcheck : checkClaim g .remote (acceptRequest 66 tag s) = none :=
      checkClaim_passes (modeAllows_of hmode hchange) nofun hbound
    have htake := claimSetTake_owner (g := g) (src := .remote) (s := acceptRequest 66 tag s) (markFresh_of hmark hgen)
      ((ownerIs_iff _ g .remote).2 hown)
    have hreport : ownerReport g (removeMark g .remote (acceptRequest 66 tag s)) =
        [2] ++ be16 (s.owners.get g).generation.toNat := by
      rw [ownerReport, removeMark_owners, ByGroup.get_set_self]
      show [ownerCode (s.owners.get g).owner] ++ _ = _
      rw [hown]
      rfl
    refine next_handle h ((claimSet_passes hcheck htake).trans ?_)
    rw [hreport, removeMark_remote]
    rfl
  · have hcheck : checkClaim g .remote (acceptRequest 66 tag s) = none :=
      checkClaim_passes (modeAllows_of hmode hchange) nofun hbound
    exact next_handle h (claimSet_stale hcheck (claimSetTake_unmarked hnone))
  · have hrelease := claimRelease_owner (tag := tag) (s := acceptRequest 67 tag s) ((ownerIs_iff _ g .remote).2 hown)
    refine ⟨_, next_handle h hrelease, ownerChange_owners _ _ _ _ _, ownerChange_ops_get _ _ _ _ _, ?_⟩
    rw [getLast?_replyBytes, claimReleaseTake, ownerChange_get]
    rfl
  · exact next_handle h (claimRelease_other ((ownerIs_eq_false _ g .remote).2 hother))

/-- Settles O50. -/
theorem cabClaimsChangeOwner : Obligations.CabClaimsChangeOwner := by
  intro s g hheld
  have hrun : ∀ {f : State → State} {t : State}, f s = t →
      Host.Outcome.next (φ := Fault) (ρ := Refusal) (unlessHeld f s) = .next t :=
    fun ht => congrArg Host.Outcome.next ((unlessHeld_of_high hheld).trans ht)
  refine ⟨fun m hmode hchange honline hbound hmark hgen hother => ?_, fun hmode => ?_, fun hown => ?_, fun hother => ?_⟩
  · have hcheck := checkClaim_passes (src := .cab) (modeAllows_of hmode hchange) (fun _ => honline) hbound
    have htake := claimSetTake_new (src := .cab) (markFresh_of hmark hgen) ((ownerIs_eq_false s g .cab).2 hother)
    have hset : cabClaimSet g s = ownerChange g .cab .set .owner s := by
      simp [cabClaimSet, hcheck, htake, ownerOfSource]
    exact ⟨_, hrun hset, ownerChange_owners _ _ _ _ _, ownerChange_ops_get _ _ _ _ _⟩
  · have hset : cabClaimSet g s = cabRefused g .claimSet .mode s := by
      simp [cabClaimSet, checkClaim_mode g .cab (modeAllows_eq_false hmode)]
    exact ⟨_, hrun hset, cabRefused_owners _ _ _ _, cabRefused_slot _ _ _ _⟩
  · have hrelease : cabClaimRelease g s = ownerChange g .none .release .owner s := by
      simp [cabClaimRelease, (ownerIs_iff s g .cab).2 hown, claimReleaseTake]
    exact ⟨_, hrun hrelease, ownerChange_owners _ _ _ _ _, ownerChange_ops_get _ _ _ _ _⟩
  · have hrelease : cabClaimRelease g s = cabRefused g .claimRelease .notOwner s := by
      simp [cabClaimRelease, (ownerIs_eq_false s g .cab).2 hother]
    exact ⟨_, hrun hrelease, cabRefused_owners _ _ _ _, cabRefused_slot _ _ _ _⟩

/-- Settles O51. -/
theorem markExpiryRemovesMark : Obligations.MarkExpiryRemovesMark := by
  intro s g src m hheld hmark
  have hexpiry : markExpiry g src s = setMark g src none (reachTime m.expiry s) := by simp [markExpiry, hmark]
  obtain ⟨hops, hresults, hgroups⟩ := setMark_frame g src none (reachTime m.expiry s)
  refine ⟨_, congrArg Host.Outcome.next ((unlessHeld_of_high hheld).trans hexpiry), setMark_now _ _ _ _,
    setMark_owners _ _ _ _, hops, hresults, hgroups, setMark_permitPins _ _ _ _, fun hremote => ?_⟩
  subst hremote
  rfl

/-! ### The start of a mode change (R136, R198) -/

/-- What the start of a mode change leaves of an owner record. -/
def lapsed (r : OwnerRec) : OwnerRec := if r.owner = .none then { r with marks := ⟨none, none⟩ } else reowned .none r

theorem modeLapse_owners (g : Group) (s : State) :
    (modeLapse g s).owners = s.owners.set g (lapsed (s.owners.get g)) := by
  unfold modeLapse lapsed
  split
  · exact clearMarks_owners _ _
  · exact ownerChange_owners _ _ _ _ _

theorem modeLapse_ops (g : Group) (s : State) (h : ∀ i, s.ops.get i = none) (i : Group) :
    (modeLapse g s).ops.get i = none := by
  unfold modeLapse
  split
  · rw [clearMarks_ops, h]
  · rw [ownerChange_ops, ByGroup.get_set, h, ite_self]

/-- The state in which the start of a mode change leaves the groups: operations ended, owners lapsed. -/
def changeStarted (target : Mode) (tag : Byte) (s : State) : State :=
  modeLapse .b (modeLapse .a (endOperation .b (.aborted .mode) (endOperation .a (.aborted .mode)
    { s with hub := { s.hub with change := some ⟨target, tag⟩ } })))

theorem startChange_eq (target : Mode) (tag : Byte) (s : State) :
    startChange target tag s = settleChange (changeStarted target tag s) := rfl

theorem changeStarted_keeps {P : State → Prop} (h : Inner P) (target : Mode) (tag : Byte) (s : State)
    (hs : P { s with hub := { s.hub with change := some ⟨target, tag⟩ } }) : P (changeStarted target tag s) :=
  modeLapse_keeps h _ _ (modeLapse_keeps h _ _ (endOperation_keeps h.toLocal _ _ _
    (endOperation_keeps h.toLocal _ _ _ hs)))

theorem changeStarted_ops (target : Mode) (tag : Byte) (s : State) (g : Group) :
    (changeStarted target tag s).ops.get g = none := by
  refine modeLapse_ops _ _ (modeLapse_ops _ _ fun i => ?_) _
  rw [endOperation_ops, endOperation_ops]
  cases i <;> rfl

theorem changeStarted_owners (target : Mode) (tag : Byte) (s : State) (g : Group) :
    (changeStarted target tag s).owners.get g = lapsed (s.owners.get g) := by
  rw [changeStarted, modeLapse_owners, modeLapse_owners, endOperation_owners, endOperation_owners]
  cases g <;> rfl

theorem lapsed_eq (r : OwnerRec) :
    (lapsed r).owner = .none ∧ (lapsed r).marks = ⟨none, none⟩ ∧
      (lapsed r).generation = if r.owner = .none then r.generation else r.generation + 1 := by
  unfold lapsed
  split
  · rename_i h
    exact ⟨h, rfl, rfl⟩
  · exact ⟨rfl, rfl, rfl⟩

theorem teardown_hub (c : ModeChange) (s : State) : (teardown c s).hub = ⟨c.target, none⟩ := by
  unfold teardown
  dsimp only
  rw [hubModeChanged, notice_hub, replyBytes_hub]
  exact startCycle_keeps (link_hub _) _ _ (startCycle_keeps (link_hub _) _ _ rfl)

theorem settleChange_waits {s : State} {c : ModeChange} (hc : s.hub.change = some c) (h : noTransfers s = false) :
    settleChange s = s := by
  simp [settleChange, hc, h]

theorem settleChange_tears {s : State} {c : ModeChange} (hc : s.hub.change = some c) (h : noTransfers s = true) :
    settleChange s = teardown c s := by
  simp [settleChange, hc, h]

@[simp] theorem modeOfByte_modeCode (m : Mode) : modeOfByte (modeCode m) = some m := by cases m <;> rfl

section ModeSets

variable {tag : Byte} {m : Mode} {s : State}

theorem modeSet_pending (h : s.hub.change.isSome = true) :
    modeSet tag [modeCode m] s = replyBytes 4 tag .busy [] s := by
  simp [modeSet, h]

theorem modeSet_same (hnone : s.hub.change = none) (h : s.hub.mode = m) :
    modeSet tag [modeCode m] s = replyBytes 4 tag .ok [modeCode m] s := by
  simp [modeSet, hnone, h]

theorem modeSet_starts (hnone : s.hub.change = none) (h : s.hub.mode ≠ m) :
    modeSet tag [modeCode m] s = settleChange (changeStarted m tag s) := by
  simp [modeSet, hnone, h, startChange_eq]

end ModeSets

/-- Settles O24: the groups are left as `changeStarted` has them, and the transfers decide about the teardown. -/
theorem modeSetStartsChange : Obligations.ModeSetStartsChange := by
  intro s tag m h
  set u := changeStarted m tag (acceptRequest 4 tag s) with hu
  have hhub : u.hub = ⟨s.hub.mode, some ⟨m, tag⟩⟩ := changeStarted_keeps (inner_hub _) _ _ _ rfl
  have hstations : u.stations = s.stations := changeStarted_keeps (inner_stations _) _ _ _ rfl
  have hchange : u.hub.change = some ⟨m, tag⟩ := by rw [hhub]
  have htransfers : noTransfers u = noTransfers s := by
    simp only [noTransfers, withTransfer, hstations]
  refine ⟨fun hpending => next_handle h (modeSet_pending hpending), fun hnone hsame =>
    next_handle h (modeSet_same hnone hsame), fun hnone hother hwait => ?_, fun hnone hother hfree => ?_⟩
  · have hset := (modeSet_starts (tag := tag) (s := acceptRequest 4 tag s) hnone hother).trans
      (settleChange_waits hchange (htransfers.trans hwait))
    refine ⟨_, next_handle h hset, hhub, hstations, changeStarted_keeps (inner_lines _) _ _ _ rfl, fun g => ?_⟩
    obtain ⟨howner, hmarks, hgen⟩ := lapsed_eq (s.owners.get g)
    rw [changeStarted_ops, changeStarted_owners]
    exact ⟨rfl, howner, hmarks, hgen⟩
  · have hset := (modeSet_starts (tag := tag) (s := acceptRequest 4 tag s) hnone hother).trans
      (settleChange_tears hchange (htransfers.trans hfree))
    exact ⟨_, next_handle h hset, teardown_hub _ _⟩

/-! ### What commands on groups leave alone -/

/-- The commands on groups, owners, operations, the alert and the cab's lamps keep every predicate that their updates
keep. -/
theorem groupCommands_keep {P : State → Prop} (h : Served P P) {c : Instr} {s t : State}
    (hc : (∃ q, c = .claimRead q ∨ c = .claimSet q ∨ c = .claimRelease q ∨ c = .opStop q ∨ c = .tripClear q) ∨
      (∃ q, c = .operate q) ∨ (∃ tag payload, c = .resultTake tag payload ∨ c = .alertAck tag payload) ∨
      (∃ g src, c = .claimMarkExpiry g src) ∨ (∃ g, c = .operationDeadline g) ∨
      (∃ k, c = .cabLampHalfPeriodExpiry k) ∨ c = .hostSilenceEvent ∨ c = .soundTimerExpiry ∨
      c = .restTimerExpiry) (he : exec c s = .next t) (hs : P s) : P t := by
  have hinner := h.toInner
  have hlocal := h.toLocal
  obtain ⟨q, rfl | rfl | rfl | rfl | rfl⟩ | ⟨q, rfl⟩ | ⟨tag, payload, rfl | rfl⟩ | ⟨g, src, rfl⟩ | ⟨g, rfl⟩ |
    ⟨k, rfl⟩ | rfl | rfl | rfl := hc
  · cases q with
    | remote tag payload =>
      cases he
      exact takeRequest_keeps h _ _ _ (claimRead_keeps h tag payload) s hs
    | cab g =>
      cases he
      exact unlessHeld_keeps _ (cabClaimRead_keeps hinner g) s hs
  · cases q with
    | remote tag payload =>
      cases he
      exact takeRequest_keeps h _ _ _ (claimSet_keeps h tag payload) s hs
    | cab g =>
      cases he
      exact unlessHeld_keeps _ (cabClaimSet_keeps hinner g) s hs
  · cases q with
    | remote tag payload =>
      cases he
      exact takeRequest_keeps h _ _ _ (claimRelease_keeps h tag payload) s hs
    | cab g =>
      cases he
      exact unlessHeld_keeps _ (cabClaimRelease_keeps hinner g) s hs
  · cases q with
    | remote tag payload =>
      cases he
      exact takeRequest_keeps h _ _ _ (opStop_keeps h tag payload) s hs
    | cab g =>
      cases he
      exact unlessHeld_keeps _ (cabStop_keeps hlocal g) s hs
  · cases q with
    | remote tag payload =>
      cases he
      exact takeRequest_keeps h _ _ _ (tripClear_keeps h tag payload) s hs
    | cab g =>
      cases he
      exact unlessHeld_keeps _ (cabTripClear_keeps hlocal g) s hs
  · cases q with
    | remote tag payload =>
      cases he
      exact takeRequest_keeps h _ _ _ (operate_keeps h tag payload) s hs
    | cab g kind =>
      cases he
      exact unlessHeld_keeps _ (cabOperate_keeps hlocal g kind) s hs
  all_goals cases he
  · exact takeRequest_keeps h _ _ _ (resultTake_keeps h tag payload) s hs
  · exact takeRequest_keeps h _ _ _ (alertAck_keeps h tag payload) s hs
  · exact unlessHeld_keeps _ (markExpiry_keeps h.toTimed g src) s hs
  · exact unlessHeld_keeps _ (deadlineReached_keeps h.toTimed g) s hs
  · exact unlessHeld_keeps _ (cabLampHalfPeriod_keeps h.toTimed k.val) s hs
  · exact unlessHeld_keeps _ (hostSilence_keeps h.toTimed) s hs
  · exact unlessHeld_keeps _ (soundExpiry_keeps h.toTimed) s hs
  · exact unlessHeld_keeps _ (restExpiry_keeps h.toTimed) s hs

/-- Settles O19: one predicate for each block that stays. -/
theorem groupCommandsFrame : Obligations.GroupCommandsFrame := by
  intro c s t hc he
  exact ⟨groupCommands_keep (served_lines _) hc he rfl, groupCommands_keep (served_stations _) hc he rfl,
    groupCommands_keep (served_staleLimits _) hc he rfl, groupCommands_keep (served_raw _) hc he rfl,
    groupCommands_keep (served_profiles _) hc he rfl, groupCommands_keep (served_store _) hc he rfl,
    groupCommands_keep (served_hub _) hc he rfl, groupCommands_keep (served_lampLines _) hc he rfl,
    groupCommands_keep (served_held _) hc he rfl, groupCommands_keep (served_length _) hc he rfl⟩

end Sys2Proof.Proofs
end

section
/-! What the cab service, the alert, the interlock and the engine do beside the write that releases a drive output
(R117, R154, R161, R170, R171, R174): the alert as an equation, and a closure that lets a station's outputs and points
be followed through them. -/

namespace Sys2Proof.Proofs

open Sys2Proof Sys2Proof.Machine Sys2Proof.Safety Sys2Proof.Laws

/-! ### One point of the image (R77 to R79) -/

/-- A point as a change set leaves it: its flag goes up where its value or quality moves. -/
def flagged (old new : Point) : Point := if samePoint old new then new else { new with changed := true }

theorem samePoint_self (p : Point) : samePoint p p = true := by simp [samePoint]

@[simp] theorem flagged_self (p : Point) : flagged p p = p := by simp [flagged, samePoint_self]

theorem getD_flagChanges {old new : List Point} (h : new.length = old.length) (i : Nat) :
    (flagChanges old new).getD i Point.unmapped = flagged (old.getD i Point.unmapped) (new.getD i Point.unmapped) := by
  rcases Nat.lt_or_ge i old.length with hlt | hge
  · have hold : old[i]? = some old[i] := List.getElem?_eq_getElem hlt
    have hnew : new[i]? = some (new[i]'(h ▸ hlt)) := List.getElem?_eq_getElem (h ▸ hlt)
    simp only [List.getD_eq_getElem?_getD, getElem?_flagChanges hold hnew, hold, hnew, Option.getD_some]
    rfl
  · have hnew : new[i]? = none := List.getElem?_eq_none (h ▸ hge)
    have hold : old[i]? = none := List.getElem?_eq_none hge
    have hflag : (flagChanges old new)[i]? = none := List.getElem?_eq_none (by simp; omega)
    simp [hnew, hold, hflag]

theorem pointAt_commitPoints {new : List Point} {s : State} (h : new.length = s.points.length) (i : Nat) :
    pointAt (commitPoints new s).1 i = flagged (pointAt s i) (new.getD i Point.unmapped) := by
  rw [pointAt, commitPoints_points, getD_flagChanges h]
  rfl

theorem pointAt_commitQuiet {new : List Point} {s : State} (h : new.length = s.points.length) (i : Nat) :
    pointAt (commitQuiet new s) i = flagged (pointAt s i) (new.getD i Point.unmapped) := pointAt_commitPoints h i

theorem getD_setPoint (i : Nat) (f : Point → Point) (ps : List Point) (n : Nat) :
    (setPoint i f ps).getD n Point.unmapped =
      if n = i ∧ n < ps.length then f (ps.getD n Point.unmapped) else ps.getD n Point.unmapped := by
  rw [setPoint, List.getD_eq_getElem?_getD, List.getElem?_set]
  by_cases hi : i = n
  · subst hi
    by_cases hlt : i < ps.length
    · simp [hlt]
    · simp [hlt]
  · simp [hi, Ne.symm hi]

theorem pointAt_setPoint_quiet (i : Nat) (f : Point → Point) (s : State) (n : Nat) :
    pointAt (commitQuiet (setPoint i f s.points) s) n =
      if n = i ∧ n < s.points.length then flagged (pointAt s n) (f (pointAt s n)) else pointAt s n := by
  rw [pointAt_commitQuiet (length_setPoint _ _ _), getD_setPoint]
  split
  · rfl
  · exact flagged_self _

theorem pointAt_setLocalOutput (i : Nat) (v : Int) (s : State) (n : Nat) :
    pointAt (setLocalOutput i v s) n =
      if n = i ∧ n < s.points.length then flagged (pointAt s n) { pointAt s n with value := v } else pointAt s n :=
  pointAt_setPoint_quiet _ _ _ _

/-- A write that enters a list moves its output's point alone (R73, R87). -/
theorem pointAt_enterWrite {k : Stn} {p : Profile} {s : State} (hp : profileOf s k = some p) (j : Nat) (v : Word)
    (n : Nat) :
    pointAt (enterWrite k j v s) n =
      if n = outputPoint p j ∧ n < s.points.length then flagged (pointAt s n) (writtenPoint v (pointAt s n))
      else pointAt s n := by
  have hp' : profileOf (updOut k (putEntry (.write j v)) s) k = some p := hp
  rw [enterWrite, reportWritten, hp']
  exact pointAt_setPoint_quiet _ _ (updOut k (putEntry (.write j v)) s) _

theorem pointAt_enterWrite_of_no_profile {k : Stn} {s : State} (hp : profileOf s k = none) (j : Nat) (v : Word)
    (n : Nat) : pointAt (enterWrite k j v s) n = pointAt s n := by
  have hp' : profileOf (updOut k (putEntry (.write j v)) s) k = none := hp
  rw [enterWrite, reportWritten, hp']
  rfl

theorem commitQuiet_outputs (new : List Point) (s : State) : (commitQuiet new s).outputs = s.outputs :=
  foldl_keeps (P := fun t => t.outputs = s.outputs) pointNotice (fun t c ht => by
    unfold pointNotice
    split
    · rw [notice_outputs, ht]
    · exact ht) _ _ rfl

theorem enterWrite_outputs (k : Stn) (j : Nat) (v : Word) (s : State) :
    (enterWrite k j v s).outputs = s.outputs.set k (putEntry (.write j v) (s.outputs.get k)) := by
  unfold enterWrite reportWritten
  split
  · exact commitQuiet_outputs _ _
  · rfl

/-! ### What happens beside a release write -/

/-- Closed under the updates of the cab service, the alert, the interlock, results, operations and owners, where the
only writes are those of the cab's lamps and the permit lines. -/
structure Beside (P : State → Prop) : Prop where
  notice : ∀ kind payload s, P s → P (notice kind payload s)
  cab : ∀ f s, P s → P (updCab f s)
  lampWrite : ∀ n v s, n < 12 → isScanned (stateOf s .c1) = true → P s → P (enterWrite .c1 n v s)
  permitLine : ∀ g v s, P s → P (setLocalOutput (permitPoint g) v s)
  groups : ∀ x s, P s → P { s with groups := x }
  permitPins : ∀ x s, P s → P { s with permitPins := x }
  owners : ∀ x s, P s → P { s with owners := x }
  ops : ∀ x s, P s → P { s with ops := x }
  results : ∀ x s, P s → P { s with results := x }

theorem foldl_keeps_mem {α : Type} {P : State → Prop} {f : State → α → State} {xs : List α}
    (hf : ∀ s, ∀ a ∈ xs, P s → P (f s a)) : ∀ s, P s → P (xs.foldl f s) := by
  induction xs with
  | nil => exact fun _ hs => hs
  | cons x xs ih => exact fun s hs => ih (fun s a ha => hf s a (by simp [ha])) _ (hf s x (by simp) hs)

section Beside

variable {P : State → Prop} (h : Beside P)

include h

theorem offerCabWrites_beside (s : State) (hs : P s) : P (offerCabWrites s) := by
  refine foldl_keeps_mem (fun s n hn hs => ?_) s hs
  have hn12 : n < 12 := by
    simp only [ownedOutputs, List.mem_cons, List.not_mem_nil, or_false] at hn
    omega
  unfold offerCabWrite
  split
  · rename_i hwrite
    simp only [Bool.and_eq_true] at hwrite
    obtain ⟨⟨-, hscanned⟩, -⟩ := hwrite
    exact h.lampWrite _ _ _ hn12 hscanned hs
  · exact hs

theorem setCabLamp_beside (k : Nat) (l : LampRec) (s : State) (hs : P s) : P (setCabLamp k l s) := by
  unfold setCabLamp
  dsimp only
  split
  · exact h.cab _ _ hs
  · exact offerCabWrites_beside h _ (h.cab _ _ hs)

theorem mirror_beside (s : State) (hs : P s) : P (mirror s) := by
  refine foldl_keeps _ (fun s k hs => ?_) _ _ hs
  unfold mirrorOne
  dsimp only
  split
  · exact hs
  · exact setCabLamp_beside h _ _ _ hs

theorem handCopy_beside (g : Group) (f : GroupCopy → GroupCopy) (s : State) (hs : P s) : P (handCopy g f s) := by
  unfold handCopy
  dsimp only
  split
  · exact mirror_beside h _ (h.cab _ _ hs)
  · exact h.cab _ _ hs

theorem raiseAlert_beside (r : AlertReason) (s : State) (hs : P s) : P (raiseAlert r s) := by
  have halert : ∀ f s, P s → P (updAlert f s) := fun _ _ => h.cab _ _
  unfold raiseAlert
  dsimp only
  split
  · exact mirror_beside h _ (h.notice _ _ _ (halert _ _ (halert _ _ hs)))
  · exact mirror_beside h _ (halert _ _ (halert _ _ hs))
  · exact halert _ _ hs

theorem publishGroup_beside (before : GroupRec) (g : Group) (s : State) (hs : P s) : P (publishGroup before g s) := by
  have hdriven : P (drivePermit g s) := by
    unfold drivePermit
    dsimp only
    split
    · exact hs
    · exact h.permitLine _ _ _ (h.permitPins _ _ hs)
  unfold publishGroup
  dsimp only
  refine handCopy_beside h _ _ _ ?_
  split
  · exact hdriven
  · exact h.notice _ _ _ hdriven

theorem evaluateFrom_beside (before : GroupRec) (g : Group) (s : State) (hs : P s) : P (evaluateFrom before g s) := by
  have hpublished := fun r => publishGroup_beside h before g _ (h.groups (s.groups.set g r) s hs)
  unfold evaluateFrom
  split
  · dsimp only
    split
    · exact raiseAlert_beside h _ _ (hpublished _)
    · exact hpublished _
  · exact hs

theorem storeResult_beside (g : Group) (src : Source) (r : OpResult) (s : State) (hs : P s) :
    P (storeResult g src r s) := by
  have hset := fun x => h.results x s hs
  cases src with
  | cab => exact handCopy_beside h _ _ _ (hset _)
  | remote => exact hset _

/-- What the end of an operation does behind the write that releases its drive output. -/
theorem endOperation_beside (g : Group) (e : Ending) (s : State) (hs : ∀ r, s.ops.get g = some r → P (releaseDrive r s))
    (hnone : s.ops.get g = none → P s) : P (endOperation g e s) := by
  unfold endOperation
  split
  · rename_i hop
    exact hnone hop
  · rename_i r hop
    have hstored := storeResult_beside h g r.source (endResult r e) _
      (h.ops ((releaseDrive r s).ops.set g none) _ (hs r hop))
    dsimp only
    refine evaluateFrom_beside h _ _ _ ?_
    split
    · exact raiseAlert_beside h _ _ (h.notice _ _ _ hstored)
    · exact h.notice _ _ _ hstored

end Beside

/-! ### The alert (R112, R155, R173 to R176) -/

/-- The alert after a raise (R174), with the sound timer that a fresh one takes. -/
def raised (why : AlertReason) (timer : Nat) (a : Alert) : Alert :=
  if a.state = .sounding then { a with reasons := addReason why a.reasons }
  else ⟨.sounding, addReason why a.reasons, a.count, some timer, none⟩

theorem raised_state (why : AlertReason) (timer : Nat) (a : Alert) : (raised why timer a).state = .sounding := by
  unfold raised
  split
  · rename_i h
    exact h
  · rfl

theorem raised_reasons (why : AlertReason) (timer : Nat) (a : Alert) :
    (raised why timer a).reasons = addReason why a.reasons := by
  unfold raised
  split <;> rfl

theorem alertNotice_cab (s : State) : (alertNotice s).cab = s.cab := notice_cab _ _ _

theorem raiseAlert_alert (why : AlertReason) (s : State) :
    (raiseAlert why s).cab.alert = raised why (s.now + s.store.working.soundMs) s.cab.alert := by
  unfold raiseAlert raised
  dsimp only
  cases hstate : s.cab.alert.state with
  | quiet =>
    rw [mirror_alert, alertNotice_cab]
    rfl
  | resting =>
    rw [mirror_alert]
    rfl
  | sounding =>
    show ({ s.cab.alert with reasons := addReason why s.cab.alert.reasons } : Alert) = _
    simp [hstate]

theorem handCopy_alert (g : Group) (f : GroupCopy → GroupCopy) (s : State) :
    (handCopy g f s).cab.alert = s.cab.alert := by
  unfold handCopy
  dsimp only
  split
  · rw [mirror_alert]
    rfl
  · rfl

theorem drivePermit_cab (g : Group) (s : State) : (drivePermit g s).cab = s.cab := by
  unfold drivePermit
  dsimp only
  split
  · rfl
  · exact setLocalOutput_keeps (image_cab _) _ _ _ rfl

theorem publishGroup_alert (before : GroupRec) (g : Group) (s : State) :
    (publishGroup before g s).cab.alert = s.cab.alert := by
  unfold publishGroup
  dsimp only
  rw [handGroup, handCopy_alert]
  split
  · rw [drivePermit_cab]
  · rw [groupNotice, notice_cab, drivePermit_cab]

/-- The clock and the settings, which the length of a fresh timer is read from. -/
theorem beside_clock (n : Nat) (v : Store) : Beside (fun t => t.now = n ∧ t.store = v) where
  notice _ _ _ h := by rwa [notice_now, notice_store]
  cab _ _ h := h
  lampWrite _ _ _ _ _ h :=
    ⟨enterWrite_keeps (inner_now n).toImage _ _ _ _ h.1, enterWrite_keeps (inner_store v).toImage _ _ _ _ h.2⟩
  permitLine _ _ _ h :=
    ⟨setLocalOutput_keeps (inner_now n).toImage _ _ _ h.1, setLocalOutput_keeps (inner_store v).toImage _ _ _ h.2⟩
  groups _ _ h := h
  permitPins _ _ h := h
  owners _ _ h := h
  ops _ _ h := h
  results _ _ h := h

/-- An evaluation raises LOAD_INSECURE where it sets the trip, and nothing else of the alert moves (R112). -/
theorem evaluateFrom_alert (before : GroupRec) (g : Group) (s : State) :
    (evaluateFrom before g s).cab.alert =
      if (s.groups.get g).bound = true ∧ (evalRecord s g).trip = true ∧ (s.groups.get g).trip = false then
        raised .loadInsecure (s.now + s.store.working.soundMs) s.cab.alert
      else s.cab.alert := by
  set r := evalRecord s g
  set v := publishGroup before g (updGroup g (fun _ => r) s) with hv
  have halert : v.cab.alert = s.cab.alert := publishGroup_alert _ _ _
  obtain ⟨hnow, hstore⟩ : v.now = s.now ∧ v.store = s.store :=
    publishGroup_beside (beside_clock s.now s.store) _ _ _ ⟨rfl, rfl⟩
  have hraised : (raiseAlert .loadInsecure v).cab.alert =
      raised .loadInsecure (s.now + s.store.working.soundMs) s.cab.alert := by
    rw [raiseAlert_alert, halert, hnow, hstore]
  by_cases hbound : (s.groups.get g).bound = true
  · by_cases htrip : r.trip = true ∧ (s.groups.get g).trip = false
    · have hset : (r.trip && !(s.groups.get g).trip) = true := by simp [htrip]
      rw [if_pos ⟨hbound, htrip⟩, ← hraised, evaluateFrom, if_pos hbound]
      exact congrArg (fun t : State => t.cab.alert) (if_pos hset)
    · have hset : ¬ (r.trip && !(s.groups.get g).trip) = true := by simpa using htrip
      rw [if_neg (fun hall => htrip hall.2), ← halert, evaluateFrom, if_pos hbound]
      exact congrArg (fun t : State => t.cab.alert) (if_neg hset)
  · rw [if_neg (fun hall => hbound hall.1), evaluateFrom, if_neg hbound]

theorem releaseDrive_cab (r : OpRec) (s : State) : (releaseDrive r s).cab = s.cab := by
  unfold releaseDrive
  split
  · split
    · exact releaseWrite_keeps (image_cab _) _ _ _ rfl
    · rfl
  · rfl

theorem storeResult_alert (g : Group) (src : Source) (r : OpResult) (s : State) :
    (storeResult g src r s).cab.alert = s.cab.alert := by
  cases src with
  | cab => exact handCopy_alert _ _ _
  | remote => rfl

/-- The alert after an end's own reason, if it has one (R155). -/
def endRaised (e : Ending) (timer : Nat) (a : Alert) : Alert :=
  match endAlert e with
  | some why => raised why timer a
  | none => a

/-- The state in which the end of an operation leaves all but the evaluation that closes it (R154). -/
def endReported (g : Group) (e : Ending) (r : OpRec) (s : State) : State :=
  let s := operationNotice g r.source (opKindCode r.kind) (endOutcome e) (endReason e) (phaseCode r.phase)
    ((storeResult g r.source (endResult r e) (setOp g none (releaseDrive r s))).now - r.start)
    (storeResult g r.source (endResult r e) (setOp g none (releaseDrive r s)))
  match endAlert e with
  | some a => raiseAlert a s
  | none => s

theorem endOperation_eq {g : Group} {e : Ending} {s : State} {r : OpRec} (h : s.ops.get g = some r) :
    endOperation g e s = evaluateRecord g (endReported g e r s) := by
  rw [endOperation, h]
  rfl

theorem releaseDrive_clock (r : OpRec) (s : State) :
    (releaseDrive r s).now = s.now ∧ (releaseDrive r s).store = s.store := by
  unfold releaseDrive
  split
  · split
    · exact ⟨releaseWrite_keeps (inner_now _).toImage _ _ _ rfl, releaseWrite_keeps (inner_store _).toImage _ _ _ rfl⟩
    · exact ⟨rfl, rfl⟩
  · exact ⟨rfl, rfl⟩

theorem endReported_alert (g : Group) (e : Ending) (r : OpRec) (s : State) :
    (endReported g e r s).cab.alert = endRaised e (s.now + s.store.working.soundMs) s.cab.alert := by
  set v := storeResult g r.source (endResult r e) (setOp g none (releaseDrive r s)) with hv
  have halert : v.cab.alert = s.cab.alert := by
    rw [hv, storeResult_alert]
    exact congrArg CabState.alert (releaseDrive_cab r s)
  obtain ⟨hnow, hstore⟩ : v.now = s.now ∧ v.store = s.store :=
    storeResult_beside (beside_clock s.now s.store) _ _ _ _ (releaseDrive_clock r s)
  unfold endReported endRaised
  rw [← hv]
  cases endAlert e with
  | none => simp only [operationNotice, notice_cab, halert]
  | some why =>
    simp only [raiseAlert_alert, operationNotice, notice_cab, notice_now, notice_store, halert, hnow, hstore]

end Sys2Proof.Proofs
end

section
/-! The alert, the evaluation's flags, TRIP_CLEAR, and the checks and the start of an operation (R106 to R116, R138 to
R145, R173 to R176), from the equations of the alert and of the record an evaluation gives. -/

namespace Sys2Proof.Proofs

open Sys2Proof Sys2Proof.Machine Sys2Proof.Safety Sys2Proof.Laws

/-! ### The alert (R112, R173 to R176) -/

theorem raised_of_sounding {why : AlertReason} {timer : Nat} {a : Alert} (h : a.state = .sounding) :
    raised why timer a = { a with reasons := addReason why a.reasons } := if_pos h

theorem raised_of_still {why : AlertReason} {timer : Nat} {a : Alert} (h : a.state ≠ .sounding) :
    raised why timer a = ⟨.sounding, addReason why a.reasons, a.count, some timer, none⟩ := if_neg h

theorem ackAlert_alert (s : State) : (ackAlert s).cab.alert = ⟨.quiet, .empty, 0, none, none⟩ := by
  rw [ackAlert, mirror_alert, alertNotice_cab]
  rfl

/-- The mirror touches nothing of groups, owners and operations. -/
theorem mirror_frame (s : State) :
    (mirror s).groups = s.groups ∧ (mirror s).owners = s.owners ∧ (mirror s).ops = s.ops ∧ (mirror s).now = s.now :=
  ⟨mirror_keeps (panel_groups _) _ rfl, mirror_keeps (panel_owners _) _ rfl, mirror_keeps (panel_ops _) _ rfl,
    mirror_keeps (inner_now _).toPanel _ rfl⟩

/-- The state that a sound timer's expiry finds: the clock at the expiry, the count one higher. -/
def soundCounted (d : Nat) (s : State) : State :=
  updAlert (fun a => { a with count := satSucc 255 a.count }) (reachTime d s)

theorem soundExpiry_running {s : State} {d : Nat} (h : s.cab.alert.soundTimer = some d) :
    soundExpiry s =
      if 0 < s.store.working.restMs then mirror (startRest (soundCounted d s)) else startSound (soundCounted d s) := by
  rw [soundExpiry, h]
  rfl

theorem restExpiry_running {s : State} {d : Nat} (h : s.cab.alert.restTimer = some d) :
    restExpiry s = mirror (startSound (reachTime d s)) := by
  rw [restExpiry, h]

/-- The rest that follows a sound timer's expiry (R175). -/
theorem rested {s : State} {d : Nat} : ∃ t, mirror (startRest (soundCounted d s)) = t ∧ t.now = max s.now d ∧
    t.cab.alert = ⟨.resting, s.cab.alert.reasons, min 255 (s.cab.alert.count + 1), none,
      some (t.now + s.store.working.restMs)⟩ ∧
    t.groups = s.groups ∧ t.owners = s.owners ∧ t.ops = s.ops := by
  obtain ⟨hgroups, howners, hops, hnow⟩ := mirror_frame (startRest (soundCounted d s))
  refine ⟨_, rfl, hnow, ?_, hgroups, howners, hops⟩
  rw [mirror_alert, hnow]
  rfl

/-- A fresh sound timer, after either timer's expiry (R175). -/
theorem startSound_frame (s : State) : (startSound s).now = s.now ∧
    (startSound s).cab.alert = ⟨.sounding, s.cab.alert.reasons, s.cab.alert.count,
      some (s.now + s.store.working.soundMs), none⟩ ∧
    (startSound s).groups = s.groups ∧ (startSound s).owners = s.owners ∧ (startSound s).ops = s.ops :=
  ⟨rfl, rfl, rfl, rfl, rfl⟩

theorem soundExpiry_row {s : State} {d : Nat} (hheld : s.held = false) (htimer : s.cab.alert.soundTimer = some d) :
    exec .soundTimerExpiry s = .next (
      if 0 < s.store.working.restMs then mirror (startRest (soundCounted d s)) else startSound (soundCounted d s)) :=
  congrArg Host.Outcome.next ((unlessHeld_of_high hheld).trans (soundExpiry_running htimer))

theorem restExpiry_row {s : State} {d : Nat} (hheld : s.held = false) (htimer : s.cab.alert.restTimer = some d) :
    exec .restTimerExpiry s = .next (mirror (startSound (reachTime d s))) :=
  congrArg Host.Outcome.next ((unlessHeld_of_high hheld).trans (restExpiry_running htimer))

theorem alertAck_nil (tag : Byte) (s : State) : alertAck tag [] s =
    replyBytes 81 tag .ok [alertReasonsByte s.cab.alert.reasons, byteOf s.cab.alert.count] (ackAlert s) := rfl

/-- ALERT_ACK answers what the alert held and quiets it (R176). -/
theorem alertAck_answers (tag : Byte) (s : State) : ∃ t, alertAck tag [] s = t ∧
    t.cab.alert = ⟨.quiet, ⟨false, false, false, false, false⟩, 0, none, none⟩ ∧
    t.port.fifo.getLast? = some ⟨.countedReply, 81, tag,
      [0, alertReasonsByte s.cab.alert.reasons, byteOf s.cab.alert.count], false, false⟩ ∧
    t.results = s.results ∧ t.groups = s.groups ∧ t.owners = s.owners ∧ t.ops = s.ops := by
  refine ⟨_, alertAck_nil tag s, ?_, getLast?_replyBytes _ _ _ _ _, ?_, ?_, ?_, ?_⟩
  · rw [replyBytes_cab, ackAlert_alert]
    rfl
  · rw [replyBytes_results, ackAlert_keeps (panel_results _) _ rfl]
  · rw [replyBytes_groups, ackAlert_keeps (panel_groups _) _ rfl]
  · rw [replyBytes_owners, ackAlert_keeps (panel_owners _) _ rfl]
  · rw [replyBytes_ops, ackAlert_keeps (panel_ops _) _ rfl]

/-- Settles O60. -/
theorem alertAcknowledgedAndTimed : Obligations.AlertAcknowledgedAndTimed := by
  refine ⟨fun s why reasons hreasons => ?_, fun s g hbound => ?_, fun s tag h => ?_, fun s d hheld htimer => ?_,
    fun s d hheld htimer => ?_⟩
  · have hadd : addReason why s.cab.alert.reasons = reasons := by
      rw [hreasons]
      cases why <;> rfl
    refine ⟨fun hstill => ?_, fun hsound => ?_⟩
    · rw [raiseAlert_alert, raised_of_still hstill, hadd]
    · rw [raiseAlert_alert, raised_of_sounding hsound, hadd]
  · rw [evaluateRecord, evaluateFrom_alert]
    refine ⟨?_, fun hnew hold => ?_⟩
    · split
      · rename_i hset
        obtain ⟨-, hnew, hold⟩ := hset
        rw [raised_reasons, hnew, hold]
        simp [addReason]
      · rename_i hset
        have hquiet : ((evalRecord s g).trip && !(s.groups.get g).trip) = false := by
          rw [← Bool.not_eq_true]
          simpa [hbound] using hset
        simp [hquiet]
    · rw [if_pos ⟨hbound, hnew, hold⟩, raised_state]
  · obtain ⟨t, ht, hframe⟩ := alertAck_answers tag (acceptRequest 81 tag s)
    exact ⟨t, next_handle h ht, hframe⟩
  · rw [soundExpiry_row hheld htimer]
    by_cases hrest : 0 < s.store.working.restMs
    · simp only [if_pos hrest]
      obtain ⟨t, ht, hframe⟩ := rested (s := s) (d := d)
      exact ⟨t, congrArg _ ht, hframe⟩
    · simp only [if_neg hrest]
      exact ⟨_, rfl, startSound_frame (soundCounted d s)⟩
  · obtain ⟨hnow, halert, hgroups, howners, hops⟩ := startSound_frame (reachTime d s)
    obtain ⟨hmgroups, hmowners, hmops, hmnow⟩ := mirror_frame (startSound (reachTime d s))
    refine ⟨_, restExpiry_row hheld htimer, hmnow, ?_, hmgroups, hmowners, hmops⟩
    rw [mirror_alert, hmnow]
    exact halert

/-! ### What an evaluation gives (R106, R111, R112, R116) -/

section Evaluation

variable {s : State} {g : Group}

theorem evalSize_unfitted {gp : GroupPart} (hpart : groupPartOf s g = some gp) (hsize : gp.size = none) :
    evalSize s g = .notFitted := by
  simp [evalSize, hpart, hsize]

theorem evalSize_fitted {gp : GroupPart} {z : SizePart} {i : Nat} (hpart : groupPartOf s g = some gp)
    (hsize : gp.size = some z) (hposition : (s.groups.get g).position = some i) :
    evalSize s g = Machine.sizeOf (pointAt s i) z.toleranceMm := by
  simp [evalSize, hpart, hsize, hposition]

theorem sizeOf_of_not_good {p : Point} (h : p.quality ≠ .good) (tol : Nat) : Machine.sizeOf p tol = .unknown := by
  simp [Machine.sizeOf, isGood, h]

theorem sizeOf_of_good {p : Point} (h : p.quality = .good) (tol : Nat) :
    Machine.sizeOf p tol =
      if 6058 - (tol : Int) ≤ p.value ∧ p.value ≤ 6058 + tol then .at20
      else if 12192 - (tol : Int) ≤ p.value ∧ p.value ≤ 12192 + tol then .at40
      else if 13716 - (tol : Int) ≤ p.value ∧ p.value ≤ 13716 + tol then .at45
      else .between := by
  have hband : ∀ n : Int, inBand p.value n tol = true ↔ n - tol ≤ p.value ∧ p.value ≤ n + tol := by
    intro n
    simp [inBand]
  simp only [Machine.sizeOf, isGood, h, beq_self_eq_true, if_true, hband]
  rfl

theorem evalSlack_iff {gp : GroupPart} (hpart : groupPartOf s g = some gp) :
    evalSlack s g = true ↔ gp.requireSlack = false ∨ (pointAt s 1).value = 1 := by
  simp [evalSlack, hpart]

theorem tripCondition_iff (trip : Bool) (previous new : LockState) (landed : LandedState) :
    tripCondition trip previous new landed = true ↔
      trip = false ∧ previous = .allLocked ∧ (new = .transit ∨ new = .allUnlocked ∨ new = .disagree) ∧
        (landed = .noneLanded ∨ landed = .partly) := by
  simp [tripCondition, and_assoc, or_assoc]

theorem evalRecord_trip_iff :
    (evalRecord s g).trip = true ↔ (s.groups.get g).trip = true ∨ ((s.groups.get g).lock = .allLocked ∧
      ((evalRecord s g).lock = .transit ∨ (evalRecord s g).lock = .allUnlocked ∨ (evalRecord s g).lock = .disagree) ∧
      ((evalRecord s g).landed = .noneLanded ∨ (evalRecord s g).landed = .partly)) := by
  have htrip : (evalRecord s g).trip = ((s.groups.get g).trip || tripCondition (s.groups.get g).trip
      (s.groups.get g).lock (evalRecord s g).lock (evalRecord s g).landed) := rfl
  rw [htrip, Bool.or_eq_true, tripCondition_iff]
  cases (s.groups.get g).trip <;> simp

theorem groupOnline_iff :
    groupOnline s g = true ↔ ∃ k, (s.groups.get g).station = some k ∧
      ((s.stations.get k).state = .online ∨ (s.stations.get k).state = .degraded) := by
  unfold groupOnline
  cases (s.groups.get g).station with
  | none => simp
  | some k =>
    have honline : isOnline (stateOf s k) = true ↔
        (s.stations.get k).state = .online ∨ (s.stations.get k).state = .degraded := by
      unfold stateOf
      cases (s.stations.get k).state <;> simp [isOnline]
    simpa using honline

theorem evalRecord_permit_iff :
    (evalRecord s g).permit = true ↔ s.hub.mode ≠ .commission ∧ (s.groups.get g).bound = true ∧
      (∃ k, (s.groups.get g).station = some k ∧
        ((s.stations.get k).state = .online ∨ (s.stations.get k).state = .degraded)) ∧
      ((evalRecord s g).lock = .allLocked ∨ (evalRecord s g).lock = .allUnlocked) ∧
      (evalRecord s g).landed ≠ .unknown ∧ (evalRecord s g).trip = false ∧ s.ops.get g = none := by
  have hpermit : (evalRecord s g).permit =
      permitOf s g (evalRecord s g).lock (evalRecord s g).landed (evalRecord s g).trip := rfl
  rw [hpermit, ← groupOnline_iff]
  simp [permitOf, and_assoc]

end Evaluation

/-- Settles O58. -/
theorem evaluationSetsTripAndPermit : Obligations.EvaluationSetsTripAndPermit := by
  intro s g r r' hr hr'
  subst hr hr'
  refine ⟨rfl, rfl, rfl, fun gp hpart => ⟨fun hsize => evalSize_unfitted hpart hsize,
    fun z i hsize hposition v tol hv htol => ?_, evalSlack_iff hpart⟩, evalRecord_trip_iff, evalRecord_permit_iff⟩
  subst hv htol
  have heval : (evalRecord s g).size = Machine.sizeOf (pointAt s i) z.toleranceMm   :=
      evalSize_fitted hpart hsize hposition
  rw [heval]
  exact ⟨fun hbad => sizeOf_of_not_good hbad _, fun hgood => sizeOf_of_good hgood _⟩

/-! ### TRIP_CLEAR (R114) -/

section Trips

variable {tag : Byte} {g : Group} {src : Source} {s : State}

theorem checkTripClear_unbound (h : (s.groups.get g).bound = false) : checkTripClear g src s = .refuse .noGroup := by
  simp [checkTripClear, h]

section Bound

variable (hbound : (s.groups.get g).bound = true)

include hbound

theorem checkTripClear_other (h : ownerIs s g src = false) : checkTripClear g src s = .refuse .notOwner := by
  simp [checkTripClear, hbound, h]

variable (hown : ownerIs s g src = true)

include hown

theorem checkTripClear_untripped (h : (s.groups.get g).trip = false) : checkTripClear g src s = .notTripped := by
  simp [checkTripClear, hbound, hown, h]

theorem checkTripClear_cleared (htrip : (s.groups.get g).trip = true)
    (hlock : (s.groups.get g).lock = .allLocked ∨ (s.groups.get g).lock = .allUnlocked)
    (hlanded : (s.groups.get g).landed ≠ .unknown) : checkTripClear g src s = .cleared := by
  simp [checkTripClear, hbound, hown, htrip, hlock, hlanded]

theorem checkTripClear_interlock (htrip : (s.groups.get g).trip = true)
    (h : ((s.groups.get g).lock ≠ .allLocked ∧ (s.groups.get g).lock ≠ .allUnlocked) ∨
      (s.groups.get g).landed = .unknown) : checkTripClear g src s = .refuse .interlock := by
  rcases h with ⟨hlocked, hunlocked⟩ | hlanded
  · simp [checkTripClear, hbound, hown, htrip, hlocked, hunlocked]
  · simp [checkTripClear, hbound, hown, htrip, hlanded]

end Bound

theorem tripClear_refused {st : Status} (h : checkTripClear g .remote s = .refuse st) :
    tripClear tag [groupCode g] s = replyBytes 71 tag st [] s := by
  rw [tripClear, groupPayload_groupCode]
  simp [h]

theorem tripClear_untripped (h : checkTripClear g .remote s = .notTripped) :
    tripClear tag [groupCode g] s = replyBytes 71 tag .ok [1] s := by
  rw [tripClear, groupPayload_groupCode]
  simp [h]

theorem tripClear_cleared (h : checkTripClear g .remote s = .cleared) :
    tripClear tag [groupCode g] s = replyBytes 71 tag .ok [0] (clearTrip g s) := by
  rw [tripClear, groupPayload_groupCode]
  simp [h]

/-- With no operation in flight a clear is the evaluation alone. -/
theorem clearTrip_groups (hbound : (s.groups.get g).bound = true) (hidle : s.ops.get g = none) :
    (clearTrip g s).groups.get g = evalRecord (updGroup g (fun r => { r with trip := false }) s) g := by
  set u := updGroup g (fun r => { r with trip := false }) s with hu
  have hops : (evaluateFrom (s.groups.get g) g u).ops.get g = none := by
    rw [(evaluateFrom_frame _ _ _).1]
    exact hidle
  have hengine : clearTrip g s = evaluateFrom (s.groups.get g) g u := by
    show handToEngine g (evaluateFrom (s.groups.get g) g u) = _
    rw [handToEngine, hops]
  have hbound' : (u.groups.get g).bound = true := by
    rw [hu, updGroup_groups, ByGroup.get_set_self]
    exact hbound
  rw [hengine, evaluateFrom_groups, if_pos hbound', ByGroup.get_set_self]

/-- What TRIP_CLEAR answers where it clears (R114). -/
theorem tripClear_clears (h : checkTripClear g .remote s = .cleared) (hbound : (s.groups.get g).bound = true) :
    ∃ t, tripClear tag [groupCode g] s = t ∧
      t.port.fifo.getLast? = some ⟨.countedReply, 71, tag, [0, 0], false, false⟩ ∧ t.owners = s.owners ∧
      (s.ops.get g = none → t.groups.get g = evalRecord (updGroup g (fun r => { r with trip := false }) s) g) := by
  refine ⟨_, tripClear_cleared h, getLast?_replyBytes _ _ _ _ _, clearTrip_keeps (local_owners _) _ _ rfl,
    fun hidle => ?_⟩
  rw [replyBytes_groups, clearTrip_groups hbound hidle]

/-- An evaluation reads nothing of the host port. -/
theorem evalRecord_port (q : HostPort) (g : Group) (s : State) :
    evalRecord { s with port := q } g = evalRecord s g := rfl

theorem evalRecord_acceptRequest (code tag : Byte) (g : Group) (s : State) :
    evalRecord (updGroup g (fun r => { r with trip := false }) (acceptRequest code tag s)) g =
      evalRecord { s with groups := s.groups.set g { s.groups.get g with trip := false } } g :=
  evalRecord_port (acceptRequest code tag s).port g
    { s with groups := s.groups.set g { s.groups.get g with trip := false } }

end Trips

/-- Settles O56. -/
theorem tripClearClearsTrip : Obligations.TripClearClearsTrip := by
  intro s tag g h u hu run hrun
  subst hu hrun
  have hanswer := fun {t} (ht : tripClear tag [groupCode g] (acceptRequest 71 tag s) = t) => next_handle h ht
  refine ⟨fun hunbound => hanswer (tripClear_refused (checkTripClear_unbound hunbound)), fun hbound =>
    ⟨fun hother => ?_, fun howner => ?_⟩⟩
  · exact hanswer (tripClear_refused (checkTripClear_other hbound ((ownerIs_eq_false _ g .remote).2 hother)))
  · have hown : ownerIs (acceptRequest 71 tag s) g .remote = true := (ownerIs_iff _ g .remote).2 howner
    refine ⟨fun hclear => hanswer (tripClear_untripped (checkTripClear_untripped hbound hown hclear)), fun htrip =>
      ⟨fun hlock hlanded => ?_, fun hfails => ?_⟩⟩
    · obtain ⟨t, ht, hlast, howners, hgroup⟩ := tripClear_clears (tag := tag)
        (checkTripClear_cleared (s := acceptRequest 71 tag s) hbound hown htrip hlock hlanded) hbound
      exact ⟨t, hanswer ht, hlast, howners, fun hidle => (hgroup hidle).trans (evalRecord_acceptRequest 71 tag g s)⟩
    · exact hanswer (tripClear_refused (checkTripClear_interlock hbound hown htrip hfails))

/-! ### The checks of a start (R138, R141 to R143) -/

theorem interlockHolds_iff (r : GroupRec) (kind : OpKind) :
    interlockHolds r kind = true ↔ (match kind with
      | .lock => r.trip = true ∨ (r.landed = .allLanded ∧ r.slackReady = true)
      | .unlock => r.trip = false ∧ r.landed = .allLanded ∧ r.slackReady = true
      | .size20 | .size40 | .size45 => r.lock = .allUnlocked ∧ r.landed = .noneLanded
      | .flipUp | .flipDown => True) := by
  cases kind <;> simp [interlockHolds, and_assoc]

theorem targetHolds_iff (r : GroupRec) (kind : OpKind) :
    targetHolds r kind = true ↔ (match kind with
      | .lock => r.lock = .allLocked
      | .unlock => r.lock = .allUnlocked
      | .size20 => r.size = .at20
      | .size40 => r.size = .at40
      | .size45 => r.size = .at45
      | .flipUp | .flipDown => False) := by
  cases kind <;> simp [targetHolds]

theorem deadlineLength_eq (gp : GroupPart) (kind : OpKind) :
    deadlineLength gp kind = (match kind with
      | .lock | .unlock => some gp.lockMs
      | .size20 | .size40 | .size45 => gp.size.map (·.sizeMs)
      | .flipUp | .flipDown => gp.flip.map (·.flipMs)) := by
  cases kind <;> rfl

theorem startRoom_eq (kind : OpKind) :
    startRoom kind = if kind = .size20 ∨ kind = .size40 ∨ kind = .size45 then 10 else 11 := by
  cases kind <;> rfl

section Checks

variable {s : State} {g : Group} {kind : OpKind} {src : Source}

theorem checkStart_mode (h : modeAllows s = false) : checkStart g kind src s = .refuse .mode := by
  simp [checkStart, h]

variable (hmode : modeAllows s = true)

include hmode

theorem checkStart_offline (h : (s.groups.get g).bound = false ∨ groupOnline s g = false) :
    checkStart g kind src s = .refuse .notOnline := by
  rcases h with h | h <;> simp [checkStart, hmode, h]

variable (hbound : (s.groups.get g).bound = true) (honline : groupOnline s g = true)

include hbound honline

theorem checkStart_other (h : ownerIs s g src = false) : checkStart g kind src s = .refuse .notOwner := by
  simp [checkStart, hmode, hbound, honline, h]

variable (hown : ownerIs s g src = true)

include hown

theorem checkStart_busy (h : (s.ops.get g).isSome = true) : checkStart g kind src s = .refuse .busy := by
  simp [checkStart, hmode, hbound, honline, hown, h]

/-- Checks 5 to 7 and the target, for an owned group with no operation in flight. -/
theorem checkStart_idle {k : Stn} {gp : GroupPart} (hidle : s.ops.get g = none)
    (hstation : (s.groups.get g).station = some k) (hpart : groupPartOf s g = some gp) :
    checkStart g kind src s =
      match deadlineLength gp kind with
      | none => .refuse .notFitted
      | some n =>
        if interlockHolds (s.groups.get g) kind = true then
          if targetHolds (s.groups.get g) kind = true then .alreadyDone
          else if startRoom kind < (s.outputs.get k).list.length then .refuse .busy else .start k gp n
        else .refuse .interlock := by
  simp only [checkStart, hmode, hbound, honline, hown, hidle, hstation, hpart]
  cases deadlineLength gp kind with
  | none => rfl
  | some n =>
    cases hinter : interlockHolds (s.groups.get g) kind with
    | false => simp
    | true =>
      simp [outOf]
      rfl

end Checks

/-- Settles O53. -/
theorem startChecksInOrder : Obligations.StartChecksInOrder := by
  intro s g kind src interlock target hinterlock htarget
  have hinter : interlock ↔ interlockHolds (s.groups.get g) kind = true :=
    hinterlock.trans (interlockHolds_iff (s.groups.get g) kind).symm
  have htar : target ↔ targetHolds (s.groups.get g) kind = true :=
    htarget.trans (targetHolds_iff (s.groups.get g) kind).symm
  refine ⟨fun hmode => checkStart_mode (modeAllows_eq_false hmode), fun hmode hchange => ?_⟩
  have hallows := modeAllows_of hmode hchange
  refine ⟨checkStart_offline hallows, fun hbound honline => ⟨checkStart_other hallows hbound honline,
    checkStart_busy hallows hbound honline, fun hown hidle k gp length hstation hpart hlength => ?_⟩⟩
  have hlen : deadlineLength gp kind = length := (deadlineLength_eq gp kind).trans hlength.symm
  rw [checkStart_idle hallows hbound honline hown hidle hstation hpart, hlen, hinter, htar, ← startRoom_eq]
  refine ⟨fun hnone => by rw [hnone], fun n hn => ?_⟩
  rw [hn]
  refine ⟨fun hfails => if_neg hfails, fun hholds => ⟨fun htrue => ?_, fun hfalse => ?_⟩⟩
  · exact (if_pos hholds).trans (if_pos htrue)
  · exact (if_pos hholds).trans (if_neg hfalse)

end Sys2Proof.Proofs
end

section
/-! The start of an operation (R140 to R145), and its end by a stop or its deadline with the release of its drive
output (R148, R154 to R156). -/

namespace Sys2Proof.Proofs

open Sys2Proof Sys2Proof.Machine Sys2Proof.Safety Sys2Proof.Laws

/-! ### The start (R140 to R145) -/

theorem twoAscending_eq (x y : Nat) : twoAscending x y = [min x y, max x y] := by
  unfold twoAscending
  split
  · rename_i h
    rw [min_eq_left h, max_eq_right h]
  · rename_i h
    rw [min_eq_right (by omega), max_eq_left (by omega)]

theorem groupOfByte_eq_some {b : Byte} {g : Group} (h : groupOfByte b = some g) : b = groupCode g := by
  unfold groupOfByte at h
  split at h
  · rename_i hb
    cases h
    exact hb
  · split at h
    · rename_i hb
      cases h
      exact hb
    · cases h

theorem opKindOfByte_eq_some {b : Byte} {kind : OpKind} (h : opKindOfByte b = some kind) : b = opKindCode kind := by
  refine BitVec.eq_of_toNat_eq ?_
  unfold opKindOfByte at h
  split at h <;> simp only [Option.some.injEq, reduceCtorEq] at h <;> subst h <;> assumption

@[simp] theorem opKindOfByte_opKindCode (kind : OpKind) : opKindOfByte (opKindCode kind) = some kind := by
  cases kind <;> rfl

theorem operatePayload_codes (g : Group) (kind : OpKind) :
    operatePayload [groupCode g, opKindCode kind] = some (g, kind) := by
  have hg : groupOfByte (groupCode g) = some g := by cases g <;> rfl
  simp [operatePayload, hg]

theorem operatePayload_none {payload : List Byte} (h : ∀ g kind, payload ≠ [groupCode g, opKindCode kind]) :
    operatePayload payload = none := by
  unfold operatePayload
  split
  · rename_i b c
    cases hg : groupOfByte b with
    | none => rfl
    | some g =>
      cases hkind : opKindOfByte c with
      | none => rfl
      | some kind => exact absurd (by rw [groupOfByte_eq_some hg, opKindOfByte_eq_some hkind]) (h g kind)
  · rfl

section Start

variable {g : Group} {kind : OpKind} {tag : Byte} {s : State}

/-- What a refused request of the cab leaves (R159). -/
theorem cabRefused_frame (g : Group) (q : CabRequest) (st : Status) (s : State) :
    (cabRefused g q st s).ops = s.ops ∧ (cabRefused g q st s).groups = s.groups ∧
      (cabRefused g q st s).owners = s.owners := by
  obtain ⟨hops, howners, hgroups⟩ := storeResult_frame g .cab (.refused q st) s
  simp [cabRefused, operationNotice, hops, howners, hgroups]

/-- What an immediate DONE leaves, and its result (R143). -/
theorem immediateDone_frame (g : Group) (kind : OpKind) (src : Source) (s : State) :
    (immediateDone g kind src s).ops = s.ops ∧ (immediateDone g kind src s).groups = s.groups ∧
      ((immediateDone g kind src s).results.get g).get src =
        some (slotAfter ((s.results.get g).get src) (.done kind)) := by
  obtain ⟨hops, -, hgroups⟩ := storeResult_frame g src (.done kind) s
  simp [immediateDone, operationNotice, hops, hgroups, storeResult_slot]

theorem immediateDone_remote_outputs (g : Group) (kind : OpKind) (s : State) :
    (immediateDone g kind .remote s).outputs = s.outputs := by
  rw [immediateDone, operationNotice, notice_outputs]
  rfl

theorem cabOperate_refused {st : Status} (h : checkStart g kind .cab s = .refuse st) :
    cabOperate g kind s = cabRefused g (.op kind) st s := by
  simp [cabOperate, h]

theorem cabOperate_done (h : checkStart g kind .cab s = .alreadyDone) :
    cabOperate g kind s = immediateDone g kind .cab s := by
  simp [cabOperate, h]

theorem cabOperate_starts {k : Stn} {gp : GroupPart} {n : Nat} (h : checkStart g kind .cab s = .start k gp n) :
    cabOperate g kind s = startOperation g kind .cab k gp n id s := by
  simp [cabOperate, h]

theorem operate_malformed {payload : List Byte} (h : operatePayload payload = none) :
    operate tag payload s = replyBytes 68 tag .badArg [] s := by
  simp [operate, h]

theorem operate_refused {st : Status} (h : checkStart g kind .remote s = .refuse st) :
    operate tag [groupCode g, opKindCode kind] s = replyBytes 68 tag st [] s := by
  rw [operate, operatePayload_codes]
  simp [h]

theorem operate_done (h : checkStart g kind .remote s = .alreadyDone) :
    operate tag [groupCode g, opKindCode kind] s =
      replyBytes 68 tag .ok ([1] ++ be16 0 ++ [0]) (immediateDone g kind .remote s) := by
  rw [operate, operatePayload_codes]
  simp only [h]

theorem operate_starts {k : Stn} {gp : GroupPart} {n : Nat} (h : checkStart g kind .remote s = .start k gp n) :
    operate tag [groupCode g, opKindCode kind] s =
      startOperation g kind .remote k gp n (startedReply tag k n) s := by
  rw [operate, operatePayload_codes]
  simp only [h]

theorem enterEntries_now (k : Stn) (es : List Entry) (s : State) : (enterEntries k es s).now = s.now :=
  enterEntries_keeps (inner_now s.now).toImage k es s rfl

/-- A start, with its record written out (R139, R144, R145). -/
theorem startOperation_eq (g : Group) (kind : OpKind) (src : Source) (k : Stn) (gp : GroupPart) (n : Nat)
    (reply : State → State) (s w : State) (hw : w = enterEntries k (startEntries gp kind) s) :
    startOperation g kind src k gp n reply s =
      evaluate g (operationNotice g src (opKindCode kind) 0 0 0 0 (reply
        (setOp g (some ⟨kind, src, s.now, s.now + n, .queued,
          kind == .unlock || (kind == .lock && !(w.groups.get g).trip), k⟩) w))) := by
  rw [hw, startOperation, startRecord, enterEntries_now]

/-- A target that already holds answers REMOTE at once (R143). -/
theorem operate_done_answers (h : checkStart g kind .remote s = .alreadyDone) :
    ∃ t, operate tag [groupCode g, opKindCode kind] s = t ∧ t.outputs = s.outputs ∧ t.ops = s.ops ∧
      t.groups = s.groups ∧
      (t.results.get g).get .remote = some (slotAfter ((s.results.get g).get .remote) (.done kind)) ∧
      t.port.fifo.getLast? = some ⟨.countedReply, 68, tag, [0, 1, 0, 0, 0], false, false⟩ := by
  obtain ⟨hops, hgroups, hslot⟩ := immediateDone_frame g kind .remote s
  refine ⟨_, operate_done h, ?_, ?_, ?_, ?_, getLast?_replyBytes _ _ _ _ _⟩
  · rw [replyBytes_outputs, immediateDone_remote_outputs]
  · rw [replyBytes_ops, hops]
  · rw [replyBytes_groups, hgroups]
  · rw [replyBytes_results, hslot]

end Start

/-- Settles O52. -/
theorem operateStartsOperation : Obligations.OperateStartsOperation := by
  refine ⟨fun gp kind => ?_, fun s g kind hheld => ?_, fun s tag h payload hbad => ?_, fun s tag g kind h u hu => ?_⟩
  · cases kind with
    | lock | unlock => rfl
    | size20 | size40 | size45 => cases hz : gp.size <;> simp [startEntries, hz, twoAscending_eq]
    | flipUp | flipDown => cases hf : gp.flip <;> simp [startEntries, hf]
  · have hrow : ∀ {t}, cabOperate g kind s = t → exec (.operate (.cab g kind)) s = .next t := fun ht =>
      congrArg Host.Outcome.next ((unlessHeld_of_high hheld).trans ht)
    refine ⟨fun st hst => ?_, fun hdone => ?_, fun k gp n hstart =>
      hrow ((cabOperate_starts hstart).trans (startOperation_eq _ _ _ _ _ _ _ _ _ rfl))⟩
    · obtain ⟨hops, hgroups, howners⟩ := cabRefused_frame g (.op kind) st s
      refine ⟨_, hrow (cabOperate_refused hst), hops, hgroups, howners, ?_⟩
      rw [cabRefused_slot, slotAfter_refused]
    · exact ⟨_, hrow (cabOperate_done hdone), immediateDone_frame g kind .cab s⟩
  · exact next_handle h (operate_malformed (operatePayload_none hbad))
  · subst hu
    refine ⟨fun st hst => next_handle h (operate_refused hst), fun hdone => ?_, fun k gp n hstart =>
      next_handle h ((operate_starts hstart).trans (startOperation_eq _ _ _ _ _ _ _ _ _ rfl))⟩
    obtain ⟨t, ht, hframe⟩ := operate_done_answers (tag := tag) hdone
    exact ⟨t, next_handle h ht, hframe⟩

end Sys2Proof.Proofs
end

section
/-! How an operation's drive output is released, and the two ends that a stop and a deadline make (R148, R154 to
R156). -/

namespace Sys2Proof.Proofs

open Sys2Proof Sys2Proof.Machine Sys2Proof.Safety Sys2Proof.Laws

/-! ### The release write (R155) -/

section Release

variable {k : Stn} {j : Nat} {s : State}

/-- A release write finds its output's write in the list, or a place in it (R86). -/
def ReleaseRoom (j : Nat) (o : OutState) : Prop := combines j o.list = true ∨ o.list.length < 16

theorem releaseRoom_iff (o : OutState) :
    (combines j o.list || decide (o.list.length < releaseRoom)) = true ↔ ReleaseRoom j o := by
  rw [Bool.or_eq_true, decide_eq_true_iff]
  rfl

theorem releaseWrite_enters (hscanned : isScanned (stateOf s k) = true) (hroom : ReleaseRoom j (s.outputs.get k)) :
    releaseWrite k j s = enterWrite k j 0 s := by
  have htest := (releaseRoom_iff (s.outputs.get k)).2 hroom
  unfold releaseWrite
  split
  · exact if_pos htest
  · exact if_pos htest
  · exact if_pos htest
  all_goals
    rename_i hstate
    simp [hstate, isScanned] at hscanned

theorem releaseWrite_full (hscanned : isScanned (stateOf s k) = true) (hroom : ¬ ReleaseRoom j (s.outputs.get k)) :
    releaseWrite k j s = s := by
  have htest := mt (releaseRoom_iff (s.outputs.get k)).1 hroom
  unfold releaseWrite
  split
  · exact if_neg htest
  · exact if_neg htest
  · exact if_neg htest
  all_goals
    rename_i hstate
    simp [hstate, isScanned] at hscanned

theorem releaseWrite_parked (h : stateOf s k = .holdoff ∨ stateOf s k = .fault) {p : Profile}
    (hp : profileOf s k = some p) :
    releaseWrite k j s = setLocalOutput (outputPoint p j) 0
      (updOut k (fun o => { o with intended := o.intended.set j 0 }) s) := by
  rcases h with h | h <;> simp [releaseWrite, h, hp]

theorem releaseWrite_unmapped (h : stateOf s k = .absent ∨ stateOf s k = .refused) : releaseWrite k j s = s := by
  rcases h with h | h <;> simp [releaseWrite, h]

theorem setLocalOutput_outputs (i : Nat) (v : Int) (s : State) : (setLocalOutput i v s).outputs = s.outputs :=
  commitQuiet_outputs _ _

theorem releaseWrite_outputs_entered (hscanned : isScanned (stateOf s k) = true)
    (hroom : ReleaseRoom j (s.outputs.get k)) :
    (releaseWrite k j s).outputs.get k = { s.outputs.get k with
      list := putWrite j 0 (s.outputs.get k).list, intended := (s.outputs.get k).intended.set j 0 } := by
  rw [releaseWrite_enters hscanned hroom, enterWrite_outputs, ByStn.get_set_self]
  rfl

theorem releaseWrite_outputs_parked (h : stateOf s k = .holdoff ∨ stateOf s k = .fault) {p : Profile}
    (hp : profileOf s k = some p) :
    (releaseWrite k j s).outputs.get k =
      { s.outputs.get k with intended := (s.outputs.get k).intended.set j 0 } := by
  rw [releaseWrite_parked h hp, setLocalOutput_outputs, updOut, ByStn.get_set_self]

/-- A flag does not move a point's value, its quality and its write outstanding. -/
theorem flagged_fields (old new : Point) : (flagged old new).value = new.value ∧
    (flagged old new).quality = new.quality ∧ (flagged old new).writeOut = new.writeOut := by
  unfold flagged
  split <;> exact ⟨rfl, rfl, rfl⟩

theorem releaseWrite_point_entered (hscanned : isScanned (stateOf s k) = true)
    (hroom : ReleaseRoom j (s.outputs.get k)) {p : Profile} (hp : profileOf s k = some p)
    (hwhole : outputPoint p j < s.points.length) :
    (pointAt (releaseWrite k j s) (outputPoint p j)).value = 0 ∧
      (pointAt (releaseWrite k j s) (outputPoint p j)).writeOut = true := by
  rw [releaseWrite_enters hscanned hroom, pointAt_enterWrite hp, if_pos ⟨rfl, hwhole⟩]
  obtain ⟨hvalue, -, hout⟩ :=
      flagged_fields (pointAt s (outputPoint p j)) (writtenPoint 0 (pointAt s (outputPoint p j)))
  exact ⟨hvalue, hout⟩

theorem releaseWrite_point_parked (h : stateOf s k = .holdoff ∨ stateOf s k = .fault) {p : Profile}
    (hp : profileOf s k = some p) (hwhole : outputPoint p j < s.points.length) :
    (pointAt (releaseWrite k j s) (outputPoint p j)).value = 0 ∧
      (pointAt (releaseWrite k j s) (outputPoint p j)).quality = (pointAt s (outputPoint p j)).quality := by
  rw [releaseWrite_parked h hp, pointAt_setLocalOutput, if_pos ⟨rfl, hwhole⟩]
  obtain ⟨hvalue, hquality, -⟩ := flagged_fields (pointAt s (outputPoint p j))
    { pointAt s (outputPoint p j) with value := 0 }
  exact ⟨hvalue, hquality⟩

end Release

/-! ### What stands beside a release -/

/-- No write of the cab's lamps and no permit line touches the output record of another station. -/
theorem beside_outputs {k : Stn} (hk : k ≠ .c1) (x : OutState) : Beside (fun t => t.outputs.get k = x) where
  notice _ _ _ h := by rwa [notice_outputs]
  cab _ _ h := h
  lampWrite _ _ _ _ _ h := by rwa [enterWrite_outputs, ByStn.get_set_ne _ _ hk]
  permitLine _ _ _ h := by rwa [setLocalOutput_outputs]
  groups _ _ h := h
  permitPins _ _ h := h
  owners _ _ h := h
  ops _ _ h := h
  results _ _ h := h

/-- A point that no lamp of the cab and no local output stands in. -/
def OffCabLamps (s : State) (i : Nat) : Prop :=
  16 ≤ i ∧ (isScanned s.stations.c1.state = false ∨ ∀ q n, profileOf s .c1 = some q → n < 12 → i ≠ outputPoint q n)

theorem profileOf_congr {s t : State} (hstations : t.stations = s.stations) (hprofiles : t.profiles = s.profiles)
    (k : Stn) : profileOf t k = profileOf s k := by
  simp only [profileOf, hstations]
  congr 1
  funext r
  cases r <;> simp [resolveProfile, tableProfile, hprofiles]

theorem notice_pointAt (kind : NoticeKind) (payload : List Byte) (s : State) (i : Nat) :
    pointAt (notice kind payload s) i = pointAt s i := by
  rw [pointAt, pointAt, notice_points]

theorem beside_point {s : State} {i : Nat} (hi : OffCabLamps s i) (x : Point) :
    Beside (fun t => (t.stations = s.stations ∧ t.profiles = s.profiles) ∧ pointAt t i = x) where
  notice _ _ _ h := by rwa [notice_stations, notice_profiles, notice_pointAt]
  cab _ _ h := h
  lampWrite n v t hn hscanned h := by
    obtain ⟨⟨hstations, hprofiles⟩, hpoint⟩ := h
    have hframe : (enterWrite .c1 n v t).stations = s.stations ∧ (enterWrite .c1 n v t).profiles = s.profiles :=
      ⟨enterWrite_keeps (inner_stations s.stations).toImage _ _ _ _ hstations,
        enterWrite_keeps (inner_profiles s.profiles).toImage _ _ _ _ hprofiles⟩
    refine ⟨hframe, ?_⟩
    cases hprofile : profileOf t .c1 with
    | none => rw [pointAt_enterWrite_of_no_profile hprofile, hpoint]
    | some q =>
      have hstate : isScanned s.stations.c1.state = true := by
        rw [← hstations]
        exact hscanned
      have hoff : i ≠ outputPoint q n := by
        rcases hi.2 with hidle | hlamps
        · rw [hstate] at hidle
          cases hidle
        · exact hlamps q n (by rw [← hprofile, profileOf_congr hstations hprofiles]) hn
      rw [pointAt_enterWrite hprofile, if_neg (fun hall => hoff hall.1), hpoint]
  permitLine g v t h := by
    obtain ⟨⟨hstations, hprofiles⟩, hpoint⟩ := h
    refine ⟨⟨setLocalOutput_keeps (inner_stations s.stations).toImage _ _ _ hstations,
      setLocalOutput_keeps (inner_profiles s.profiles).toImage _ _ _ hprofiles⟩, ?_⟩
    have hpermit : i ≠ permitPoint g := by
      have := hi.1
      cases g <;> simp only [permitPoint] <;> omega
    rw [pointAt_setLocalOutput, if_neg (fun hall => hpermit hall.1), hpoint]
  groups _ _ h := h
  permitPins _ _ h := h
  owners _ _ h := h
  ops _ _ h := h
  results _ _ h := h

/-! ### The release of an operation that ends (R154, R155) -/

theorem releaseDrive_eq {r : OpRec} {s : State} {gp : GroupPart} {j : Nat}
    (hpart : (profileOf s r.station).bind (·.group) = some gp) (hdrive : driveOutput gp r.kind = some j) :
    releaseDrive r s = releaseWrite r.station j s := by
  simp [releaseDrive, hpart, hdrive]

section Ended

variable {s : State} {g : Group} {r : OpRec} {gp : GroupPart} {j : Nat} (e : Ending) (hop : s.ops.get g = some r)
  (hpart : (profileOf s r.station).bind (·.group) = some gp) (hdrive : driveOutput gp r.kind = some j)

include hop hpart hdrive

/-- What the end leaves of a claim that its release write establishes. -/
theorem endOperation_released {P : State → Prop} (hP : Beside P) (h : P (releaseWrite r.station j s)) :
    P (endOperation g e s) := by
  refine endOperation_beside hP g e s (fun r' hr' => ?_) (fun hnone => ?_)
  · obtain rfl : r = r' := Option.some.inj (hop.symm.trans hr')
    rwa [releaseDrive_eq hpart hdrive]
  · rw [hop] at hnone
    cases hnone

theorem endOperation_outputs_released (hk : r.station ≠ .c1) :
    (endOperation g e s).outputs.get r.station = (releaseWrite r.station j s).outputs.get r.station :=
  endOperation_released e hop hpart hdrive (beside_outputs hk _) rfl

theorem endOperation_point_released {i : Nat} (hi : OffCabLamps s i) :
    pointAt (endOperation g e s) i = pointAt (releaseWrite r.station j s) i :=
  (endOperation_released e hop hpart hdrive (beside_point hi _)
    ⟨⟨releaseWrite_keeps (inner_stations s.stations).toImage _ _ _ rfl,
      releaseWrite_keeps (inner_profiles s.profiles).toImage _ _ _ rfl⟩, rfl⟩).2

end Ended

/-- The release of an operation's drive output, by its station's state (R155). -/
def Released (s : State) (r : OpRec) (t : State) : Prop :=
  ∀ gp j, r.station ≠ .c1 → (profileOf s r.station).bind (·.group) = some gp → driveOutput gp r.kind = some j →
    (isScanned (s.stations.get r.station).state = true → ReleaseRoom j (s.outputs.get r.station) →
      t.outputs.get r.station = { s.outputs.get r.station with
        list := putWrite j 0 (s.outputs.get r.station).list
        intended := (s.outputs.get r.station).intended.set j 0 }) ∧
    (isScanned (s.stations.get r.station).state = true → ¬ ReleaseRoom j (s.outputs.get r.station) →
      t.outputs.get r.station = s.outputs.get r.station) ∧
    ((s.stations.get r.station).state = .holdoff ∨ (s.stations.get r.station).state = .fault →
      t.outputs.get r.station = { s.outputs.get r.station with
        intended := (s.outputs.get r.station).intended.set j 0 }) ∧
    ((s.stations.get r.station).state = .absent ∨ (s.stations.get r.station).state = .refused →
      t.outputs.get r.station = s.outputs.get r.station) ∧
    ∀ p, profileOf s r.station = some p → OffCabLamps s (outputPoint p j) → outputPoint p j < s.points.length →
      (isScanned (s.stations.get r.station).state = true → ReleaseRoom j (s.outputs.get r.station) →
        (pointAt t (outputPoint p j)).value = 0 ∧ (pointAt t (outputPoint p j)).writeOut = true) ∧
      ((s.stations.get r.station).state = .holdoff ∨ (s.stations.get r.station).state = .fault →
        (pointAt t (outputPoint p j)).value = 0 ∧
          (pointAt t (outputPoint p j)).quality = (pointAt s (outputPoint p j)).quality) ∧
      ((s.stations.get r.station).state = .absent → pointAt t (outputPoint p j) = pointAt s (outputPoint p j))

theorem endOperation_releases {s : State} {g : Group} {r : OpRec} (e : Ending) (hop : s.ops.get g = some r) :
    Released s r (endOperation g e s) := by
  intro gp j hk hpart hdrive
  have hout := endOperation_outputs_released e hop hpart hdrive hk
  obtain ⟨p', hp', -⟩ := Option.bind_eq_some_iff.1 hpart
  refine ⟨fun hscanned hroom => ?_, fun hscanned hfull => ?_, fun hparked => ?_, fun hgone => ?_,
    fun p hp hoff hwhole => ?_⟩
  · rw [hout, releaseWrite_outputs_entered hscanned hroom]
  · rw [hout, releaseWrite_full hscanned hfull]
  · rw [hout, releaseWrite_outputs_parked hparked hp']
  · rw [hout, releaseWrite_unmapped hgone]
  · rw [endOperation_point_released e hop hpart hdrive hoff]
    refine ⟨fun hscanned hroom => releaseWrite_point_entered hscanned hroom hp hwhole,
      fun hparked => releaseWrite_point_parked hparked hp hwhole, fun habsent => ?_⟩
    rw [releaseWrite_unmapped (Or.inl habsent)]

/-! ### The alert of an end (R112, R155) -/

/-- An end adds its own reason and, where its evaluation sets a trip, LOAD_INSECURE. -/
theorem endOperation_alert {s : State} {g : Group} {r : OpRec} (e : Ending) (hop : s.ops.get g = some r) :
    ∃ (insecure : Bool) (timer : Nat), (endOperation g e s).cab.alert =
      if insecure then raised .loadInsecure timer (endRaised e (s.now + s.store.working.soundMs) s.cab.alert)
      else endRaised e (s.now + s.store.working.soundMs) s.cab.alert := by
  rw [endOperation_eq hop, evaluateRecord, evaluateFrom_alert, endReported_alert]
  split
  · exact ⟨true, _, rfl⟩
  · exact ⟨false, 0, rfl⟩

section EndAlert

variable {s : State} {g : Group} {r : OpRec} (e : Ending) (hop : s.ops.get g = some r)

include hop

theorem endOperation_opTimeout : (endOperation g e s).cab.alert.reasons.opTimeout =
    (s.cab.alert.reasons.opTimeout || decide (e = .timedOut)) := by
  obtain ⟨insecure, timer, halert⟩ := endOperation_alert e hop
  rw [halert]
  cases insecure <;> cases e with
  | done => simp [endRaised, endAlert, raised_reasons, addReason]
  | timedOut => simp [endRaised, endAlert, raised_reasons, addReason]
  | aborted why => cases why <;> simp [endRaised, endAlert, raised_reasons, addReason]

theorem endOperation_opAborted : (endOperation g e s).cab.alert.reasons.opAborted =
    (s.cab.alert.reasons.opAborted || decide (e = .aborted .link ∨ e = .aborted .lifted)) := by
  obtain ⟨insecure, timer, halert⟩ := endOperation_alert e hop
  rw [halert]
  cases insecure <;> cases e with
  | done => simp [endRaised, endAlert, raised_reasons, addReason]
  | timedOut => simp [endRaised, endAlert, raised_reasons, addReason]
  | aborted why => cases why <;> simp [endRaised, endAlert, raised_reasons, addReason]

end EndAlert

/-- A time-out leaves the alert sounding. -/
theorem endOperation_timedOut_sounds {s : State} {g : Group} {r : OpRec} (hop : s.ops.get g = some r) :
    (endOperation g .timedOut s).cab.alert.state = .sounding := by
  obtain ⟨insecure, timer, halert⟩ := endOperation_alert .timedOut hop
  rw [halert]
  cases insecure with
  | true => exact raised_state _ _ _
  | false => exact raised_state _ _ _

/-! ### The two ends -/

theorem deadlineEnding_eq (r : OpRec) : deadlineEnding r =
    if (r.kind = .flipUp ∨ r.kind = .flipDown) ∧ r.phase = .driving then .done else .timedOut := by
  unfold deadlineEnding
  cases r.kind <;> cases r.phase <;> simp [isFlipKind]

/-- The result that an end leaves in its source's slot. -/
theorem endOperation_slot {s : State} {g : Group} {r : OpRec} (e : Ending) (hop : s.ops.get g = some r) :
    ((endOperation g e s).results.get g).get r.source =
      some (slotAfter ((s.results.get g).get r.source) (endResult r e)) := by
  rw [endOperation_results g e s r hop, ByGroup.get_set_self, BySource.get_set_self]

theorem endOperation_idle (g : Group) (e : Ending) (s : State) : (endOperation g e s).ops.get g = none := by
  rw [endOperation_ops, ByGroup.get_set_self]

/-- What an OP_STOP by the owner leaves (R156). -/
def Stopped (s : State) (g : Group) (r : OpRec) (t : State) : Prop :=
  t.ops.get g = none ∧ t.owners = s.owners ∧
    (t.results.get g).get r.source = some (slotAfter ((s.results.get g).get r.source) (.aborted r.kind .stopped)) ∧
    Released s r t ∧ t.cab.alert.reasons.opTimeout = s.cab.alert.reasons.opTimeout ∧
    t.cab.alert.reasons.opAborted = s.cab.alert.reasons.opAborted

theorem endOperation_stops {s : State} {g : Group} {r : OpRec} (hop : s.ops.get g = some r) :
    Stopped s g r (endOperation g (.aborted .stopped) s) := by
  refine ⟨endOperation_idle _ _ _, endOperation_owners _ _ _, endOperation_slot _ hop, endOperation_releases _ hop,
    ?_, ?_⟩
  · simpa using endOperation_opTimeout (.aborted .stopped) hop
  · simpa using endOperation_opAborted (.aborted .stopped) hop

theorem opStop_owned {s : State} {g : Group} {r : OpRec} (tag : Byte) (hown : ownerIs s g .remote = true)
    (hop : s.ops.get g = some r) : opStop tag [groupCode g] s =
      replyBytes 69 tag .ok [0, opKindCode r.kind] (endOperation g (.aborted .stopped) s) := by
  rw [opStop, groupPayload_groupCode]
  simp [hown, stopOperation, hop]

theorem opStop_stops {s : State} {g : Group} {r : OpRec} (tag : Byte) (hown : ownerIs s g .remote = true)
    (hop : s.ops.get g = some r) : ∃ t, opStop tag [groupCode g] s = t ∧ Stopped s g r t ∧
      t.port.fifo.getLast? = some ⟨.countedReply, 69, tag, [0, 0, opKindCode r.kind], false, false⟩ :=
  ⟨_, opStop_owned tag hown hop, endOperation_stops hop, getLast?_replyBytes _ _ _ _ _⟩

theorem cabStop_owned {s : State} {g : Group} {r : OpRec} (hown : ownerIs s g .cab = true)
    (hop : s.ops.get g = some r) : cabStop g s = endOperation g (.aborted .stopped) s := by
  simp [cabStop, hown, stopOperation, hop]

/-- What the deadline leaves (R148). -/
theorem deadlineReached_ends {s : State} {g : Group} {r : OpRec} (hop : s.ops.get g = some r) :
    deadlineReached g s = endOperation g (deadlineEnding r) (reachTime r.deadline s) := by
  rw [deadlineReached, hop]

/-- The release is told of the station's record, its output record and the points: the port and the clock are not. -/
theorem released_of_clock {s t : State} {r : OpRec} {q : HostPort} {n : Nat}
    (h : Released { s with port := q, now := n } r t) : Released s r t := h

theorem released_of_accepted {s t : State} {r : OpRec} {code tag : Byte} (h : Released (acceptRequest code tag s) r t) :
    Released s r t :=
  released_of_clock (q := (acceptRequest code tag s).port) (n := s.now) h

/-- The release as the statement writes it out. -/
theorem Released.written {s t : State} {r : OpRec} (h : Released s r t) : ∀ gp j o, r.station ≠ .c1 →
    (profileOf s r.station).bind (·.group) = some gp → driveOutput gp r.kind = some j →
    o = s.outputs.get r.station →
    t.outputs.get r.station =
      (match (s.stations.get r.station).state with
        | .joining | .online | .degraded =>
          if combines j o.list = true ∨ o.list.length < 16 then
            { o with list := putWrite j 0 o.list, intended := o.intended.set j 0 }
          else o
        | .holdoff | .fault => { o with intended := o.intended.set j 0 }
        | .absent | .refused => o) ∧
    ∀ p i, profileOf s r.station = some p → i = outputPoint p j → 16 ≤ i → i < s.points.length →
      (isScanned s.stations.c1.state = false ∨
        ∀ q n, profileOf s .c1 = some q → n < 12 → i ≠ outputPoint q n) →
      (isScanned (s.stations.get r.station).state = true → combines j o.list = true ∨ o.list.length < 16 →
        (pointAt t i).value = 0 ∧ (pointAt t i).writeOut = true) ∧
      ((s.stations.get r.station).state = .holdoff ∨ (s.stations.get r.station).state = .fault →
        (pointAt t i).value = 0 ∧ (pointAt t i).quality = (pointAt s i).quality) ∧
      ((s.stations.get r.station).state = .absent → pointAt t i = pointAt s i) := by
  intro gp j o hk hpart hdrive ho
  subst ho
  obtain ⟨hentered, hfull, hparked, hgone, hpoint⟩ := h gp j hk hpart hdrive
  refine ⟨?_, fun p i hp hi h16 hwhole hoff => ?_⟩
  · have hscan : isScanned (s.stations.get r.station).state = true → t.outputs.get r.station =
        if combines j (s.outputs.get r.station).list = true ∨ (s.outputs.get r.station).list.length < 16 then
          { s.outputs.get r.station with
            list := putWrite j 0 (s.outputs.get r.station).list
            intended := (s.outputs.get r.station).intended.set j 0 }
        else s.outputs.get r.station := by
      intro hscanned
      by_cases hroom : ReleaseRoom j (s.outputs.get r.station)
      · rw [hentered hscanned hroom]
        exact (if_pos hroom).symm
      · rw [hfull hscanned hroom]
        exact (if_neg hroom).symm
    cases hstate : (s.stations.get r.station).state with
    | joining | online | degraded => exact hscan (by rw [hstate]; rfl)
    | holdoff => exact hparked (Or.inl hstate)
    | fault => exact hparked (Or.inr hstate)
    | absent => exact hgone (Or.inl hstate)
    | refused => exact hgone (Or.inr hstate)
  · subst hi
    exact hpoint p hp ⟨h16, hoff⟩ hwhole

/-- Settles O54. -/
theorem stopAndDeadlineEndOperation : Obligations.StopAndDeadlineEndOperation := by
  refine ⟨fun s g hnone => ?_, fun s g r hop released hreleased => ⟨fun tag h howner => ?_, fun hheld =>
    ⟨fun howner => ?_, ?_⟩⟩, fun s g r why hop => ?_⟩
  · have hdone : unlessHeld (deadlineReached g) s = s := by
      rw [unlessHeld, deadlineReached, hnone, ite_self]
    exact congrArg Host.Outcome.next hdone
  · have hown : ownerIs (acceptRequest 69 tag s) g .remote = true := (ownerIs_iff _ g .remote).2 howner
    obtain ⟨t, ht, ⟨hops, howners, hslot, hrel, htimeout, haborted⟩, hlast⟩ :=
      opStop_stops (s := acceptRequest 69 tag s) tag hown hop
    exact ⟨t, next_handle h ht, hops, howners, hslot, hlast, (hreleased t).2 (released_of_accepted hrel).written,
      htimeout, haborted⟩
  · have hown : ownerIs s g .cab = true := (ownerIs_iff s g .cab).2 howner
    obtain ⟨hops, howners, hslot, hrel, halert⟩ := endOperation_stops (s := s) hop
    exact ⟨_, congrArg Host.Outcome.next ((unlessHeld_of_high hheld).trans (cabStop_owned hown hop)), hops, howners,
      hslot, (hreleased _).2 hrel.written, halert⟩
  · have hop' : (reachTime r.deadline s).ops.get g = some r := hop
    have hrel : Released s r (endOperation g (deadlineEnding r) (reachTime r.deadline s)) :=
      released_of_clock (q := s.port) (endOperation_releases (deadlineEnding r) hop')
    refine ⟨_, congrArg Host.Outcome.next ((unlessHeld_of_high hheld).trans (deadlineReached_ends hop)),
      endOperation_idle _ _ _, endOperation_owners _ _ _, (hreleased _).2 hrel.written, fun hflip => ?_,
      fun hother => ?_⟩
    · rw [deadlineEnding_eq, if_pos hflip]
      refine ⟨endOperation_slot .done hop', ?_⟩
      simpa using endOperation_opTimeout .done hop'
    · rw [deadlineEnding_eq, if_neg hother]
      refine ⟨endOperation_slot .timedOut hop', ?_, endOperation_timedOut_sounds hop'⟩
      simpa using endOperation_opTimeout .timedOut hop'
  · rw [endOperation_opAborted _ hop]
    simp

end Sys2Proof.Proofs
end

section
/-! Writes of the host to points (R96, R100) and the half-periods of the hub's lamps (R101, R168). -/

namespace Sys2Proof.Proofs

open Sys2Proof Sys2Proof.Machine Sys2Proof.Safety Sys2Proof.Laws

/-! ### Lamps (R100, R101) -/

/-- A lamp's record in a list of lamps behind a replacement of one of them. -/
theorem getD_set_lamp (lamps : List LampRec) (k j : Nat) (l : LampRec) :
    (lamps.set k l).getD j LampRec.reset = if j = k ∧ k < lamps.length then l else lamps.getD j LampRec.reset := by
  rw [List.getD_eq_getElem?_getD, List.getElem?_set, List.getD_eq_getElem?_getD]
  by_cases hj : k = j
  · subst hj
    by_cases hlt : k < lamps.length <;> simp [hlt]
  · simp [hj, Ne.symm hj]

theorem isFlashing_iff (m : LampMode) : isFlashing m = true ↔ m = .flashSlow ∨ m = .flashFast := by
  cases m <;> simp [isFlashing]

theorem lampOffer_flashing {m : LampMode} {l : LampRec} {now : Nat} (h : l.mode = .flashSlow ∨ l.mode = .flashFast) :
    lampOffer m now l = { l with held := some m } := by
  rw [lampOffer, if_pos ((isFlashing_iff _).2 h)]

theorem lampStart_eq (m : LampMode) (now : Nat) (l : LampRec) : lampStart m now l = ⟨m, none, decide (m ≠ .off),
    if m = .flashSlow then some (now + 500) else if m = .flashFast then some (now + 125) else none⟩ := by
  cases m <;> rfl

theorem lampOffer_still {m : LampMode} {l : LampRec} {now : Nat} (h : isFlashing l.mode = false) :
    lampOffer m now l = ⟨m, none, decide (m ≠ .off),
      if m = .flashSlow then some (now + 500) else if m = .flashFast then some (now + 125) else none⟩ := by
  rw [lampOffer, if_neg (by simp [h]), lampStart_eq]

theorem lampExpire_eq (now : Nat) (l : LampRec) : lampExpire now l = (match l.held with
    | none => { l with level := !l.level, timer := some (now + if l.mode = .flashFast then 125 else 500) }
    | some .off => ⟨.off, none, false, none⟩
    | some .on => ⟨.on, none, true, none⟩
    | some .flashSlow => ⟨.flashSlow, none, !l.level, some (now + 500)⟩
    | some .flashFast => ⟨.flashFast, none, !l.level, some (now + 125)⟩) := by
  unfold lampExpire
  cases l.held with
  | none => cases l.mode <;> rfl
  | some m => cases m <;> rfl

/-! ### Lamp lines -/

section Lines

variable (k : Nat) (l : LampRec) (s : State)

theorem setLampLine_lampLines : (setLampLine k l s).lampLines = s.lampLines.set k l :=
  setLocalOutput_keeps (inner_lampLines _).toImage _ _ _ rfl

theorem setLampLine_outputs : (setLampLine k l s).outputs = s.outputs := setLocalOutput_outputs _ _ _

theorem setLampLine_now : (setLampLine k l s).now = s.now := setLocalOutput_keeps (inner_now _).toImage _ _ _ rfl

theorem lampAt_setLampLine (j : Nat) :
    lampAt (setLampLine k l s) j = if j = k ∧ k < s.lampLines.length then l else lampAt s j := by
  rw [lampAt, setLampLine_lampLines, getD_set_lamp]
  rfl

theorem pointAt_setLampLine (i : Nat) :
    pointAt (setLampLine k l s) i =
      if i = 10 + k ∧ i < s.points.length then
        flagged (pointAt s i) { pointAt s i with value := lampModeNat l.mode }
      else pointAt s i :=
  pointAt_setLocalOutput _ _ { s with lampLines := s.lampLines.set k l } _

end Lines

/-! ### POINT_WRITE (R96) -/

section PointWrite

variable {s : State} {tag i v1 v0 : Byte}

theorem pointWrite_lampLine {k : Nat} (h : checkPointWrite i.toNat (u16 v1 v0) s = .ok (.lampLine k)) :
    pointWrite tag [i, v1, v0] s = replyBytes 51 tag .ok [lampOutcome (lampAt s k), 0]
      (setLampLine k (lampOffer ((lampModeOfNat (u16 v1 v0)).getD .off) s.now (lampAt s k)) s) := by
  simp only [pointWrite, h]

theorem pointWrite_output {k : Stn} {j : Nat} (h : checkPointWrite i.toNat (u16 v1 v0) s = .ok (.output k j)) :
    pointWrite tag [i, v1, v0] s = replyBytes 51 tag .ok
      [writeOutcome j (outOf s k), byteOf (outOf (enterWrite k j (BitVec.ofNat 16 (u16 v1 v0)) s) k).list.length]
      (enterWrite k j (BitVec.ofNat 16 (u16 v1 v0)) s) := by
  simp only [pointWrite, h]

theorem checkPointWrite_lampLine {n v : Nat} {k : Fin 6} (hn : n = 10 + k.val) (hv : v ≤ 3)
    (hkind : (pointAt s (10 + k.val)).kind = .lamp) (hhome : (pointAt s (10 + k.val)).home = .localPin (2 + k.val))
    (hquality : (pointAt s (10 + k.val)).quality = .good) (howner : (pointAt s (10 + k.val)).owner = .free) :
    checkPointWrite n v s = .ok (.lampLine k.val) := by
  have hk := k.isLt
  subst hn
  have htarget : writeTarget (10 + k.val) (pointAt s (10 + k.val)) = some (.lampLine k.val) := by
    rw [writeTarget, hhome]
    simp
    omega
  have hmode : ¬ (s.hub.mode = .commission ∧ 15 < 10 + k.val) := by omega
  simp [checkPointWrite, hmode, hquality, hkind, writable, hv, howner, htarget]

theorem checkPointWrite_output {n v : Nat} {k : Stn} {j : Nat} (hmode : s.hub.mode = .commission → n ≤ 15) (hv : v ≤ 1)
    (hkind : (pointAt s n).kind = .dout) (hquality : (pointAt s n).quality ≠ .unmapped)
    (howner : (pointAt s n).owner = .free) (htarget : writeTarget n (pointAt s n) = some (.output k j))
    (hscanned : isScanned (stateOf s k) = true) (hroom : roomForWrite j (outOf s k) = true) :
    checkPointWrite n v s = .ok (.output k j) := by
  have hmode' : ¬ (s.hub.mode = .commission ∧ 15 < n) := fun h => by
    have := hmode h.1
    omega
  simp [checkPointWrite, hmode', hquality, hkind, writable, hv, howner, htarget, hscanned, hroom]

end PointWrite

theorem u16_lampModeCode (m : LampMode) : u16 0 (lampModeCode m) ≤ 3 ∧
    lampModeOfNat (u16 0 (lampModeCode m)) = some m := by
  cases m <;> decide

/-- What a POINT_WRITE to a lamp line does (R100). -/
theorem pointWrite_lamp_takes {s : State} (tag : Byte) (k : Fin 6) (m : LampMode)
    (hkind : (pointAt s (10 + k.val)).kind = .lamp) (hhome : (pointAt s (10 + k.val)).home = .localPin (2 + k.val))
    (hquality : (pointAt s (10 + k.val)).quality = .good) (howner : (pointAt s (10 + k.val)).owner = .free)
    (hlamps : s.lampLines.length = 6) :
    ∃ t, pointWrite tag [byteOf (10 + k.val), 0, lampModeCode m] s = t ∧
      t.port.fifo.getLast? = some ⟨.countedReply, 51, tag, [0, lampOutcome (lampAt s k.val), 0], false, false⟩ ∧
      lampAt t k.val = lampOffer m s.now (lampAt s k.val) ∧
      (∀ j, j ≠ k.val → lampAt t j = lampAt s j) ∧ t.outputs = s.outputs := by
  have hk := k.isLt
  have hindex : (byteOf (10 + k.val)).toNat = 10 + k.val := by
    simp [byteOf]
    omega
  obtain ⟨hrange, hmode⟩ := u16_lampModeCode m
  have hcheck : checkPointWrite (byteOf (10 + k.val)).toNat (u16 0 (lampModeCode m)) s = .ok (.lampLine k.val) :=
    checkPointWrite_lampLine hindex hrange hkind hhome hquality howner
  refine ⟨_, pointWrite_lampLine hcheck, getLast?_replyBytes _ _ _ _ _, ?_, fun j hj => ?_, ?_⟩
  · show lampAt (setLampLine _ _ _) _ = _
    rw [lampAt_setLampLine, if_pos ⟨rfl, by omega⟩, hmode]
    rfl
  · show lampAt (setLampLine _ _ _) _ = _
    rw [lampAt_setLampLine, if_neg (fun h => hj h.1)]
  · rw [replyBytes_outputs, setLampLine_outputs]

/-- Settles O34. -/
theorem lampLineWriteTakenOrHeld : Obligations.LampLineWriteTakenOrHeld := by
  intro s tag k m h hkind hhome hquality howner hlamps
  obtain ⟨t, ht, hlast, hlamp, hothers, houtputs⟩ :=
    pointWrite_lamp_takes (s := acceptRequest 51 tag s) tag k m hkind hhome hquality howner hlamps
  refine ⟨t, next_handle h ht, fun hstill => ⟨?_, ?_⟩, fun hflash => ⟨?_, ?_⟩, hothers, houtputs⟩
  · have houtcome : lampOutcome (lampAt s k.val) = 2 := by
      rcases hstill with hmode | hmode <;> simp [lampOutcome, hmode, isFlashing]
    exact hlast.trans (by rw [← houtcome]; rfl)
  · have hidle : isFlashing (lampAt s k.val).mode = false := by
      rcases hstill with hmode | hmode <;> rw [hmode] <;> rfl
    exact hlamp.trans (lampOffer_still hidle)
  · have houtcome : lampOutcome (lampAt s k.val) = 3 := by
      rcases hflash with hmode | hmode <;> simp [lampOutcome, hmode, isFlashing]
    exact hlast.trans (by rw [← houtcome]; rfl)
  · exact hlamp.trans (lampOffer_flashing hflash)

/-! ### A write to a station's output -/

theorem flagged_written (v : Bool) (q : Point) : flagged q (writtenPoint (BitVec.ofNat 16 v.toNat) q) = { q with
    value := v.toNat
    writeOut := true
    quality := if q.quality = .good then .pending else q.quality
    changed := q.changed || decide (q.quality = .good ∨ q.value ≠ v.toNat) } := by
  have hv : ((BitVec.ofNat 16 v.toNat).toNat : Int) = v.toNat := by cases v <;> rfl
  unfold flagged samePoint writtenPoint
  rw [hv]
  by_cases hgood : q.quality = .good
  · simp [hgood]
  · by_cases hvalue : q.value = v.toNat
    · simp [hgood, hvalue]
    · simp [hgood, hvalue]

/-- What a POINT_WRITE to a station's output does (R73, R87, R96). -/
theorem pointWrite_output_enters {s : State} (tag i : Byte) (v : Bool) (k : Stn) (j : Nat)
    (hcheck : checkPointWrite i.toNat (u16 0 (bit v)) s = .ok (.output k j)) :
    ∃ t, pointWrite tag [i, 0, bit v] s = t ∧
      t.outputs = s.outputs.set k (putEntry (.write j (BitVec.ofNat 16 v.toNat)) (s.outputs.get k)) ∧
      t.port.fifo.getLast? = some ⟨.countedReply, 51, tag,
        [0, writeOutcome j (s.outputs.get k),
          byteOf (putWrite j (BitVec.ofNat 16 v.toNat) (s.outputs.get k).list).length], false, false⟩ ∧
      t.stations = s.stations ∧
      ∀ n, pointAt t n = pointAt (enterWrite k j (BitVec.ofNat 16 v.toNat) s) n := by
  have hword : u16 0 (bit v) = v.toNat := by cases v <;> rfl
  refine ⟨_, pointWrite_output hcheck, ?_, ?_, ?_, fun n => ?_⟩
  · rw [replyBytes_outputs, enterWrite_outputs, hword]
  · rw [getLast?_replyBytes, outOf, outOf, enterWrite_outputs, ByStn.get_set_self, hword]
    rfl
  · rw [replyBytes_stations, enterWrite_keeps (inner_stations s.stations).toImage _ _ _ _ rfl]
  · rw [hword]
    rfl

/-- Settles O35. -/
theorem stationWriteEntersList : Obligations.StationWriteEntersList := by
  intro s tag i v k j h hkind hquality howner htarget hmode hscanned hroom
  have hroom' : roomForWrite j (s.outputs.get k) = true := by
    rw [roomForWrite, Bool.or_eq_true, decide_eq_true_iff]
    exact hroom
  have hrange : u16 0 (bit v) ≤ 1 := by cases v <;> decide
  have hcheck : checkPointWrite i.toNat (u16 0 (bit v)) (acceptRequest 51 tag s) = .ok (.output k j) :=
    checkPointWrite_output hmode hrange hkind hquality howner htarget hscanned hroom'
  obtain ⟨t, ht, houtputs, hlast, hstations, hpoints⟩ := pointWrite_output_enters tag i v k j hcheck
  refine ⟨t, next_handle h ht, ?_, fun k' hk' => ?_, hlast, hstations, fun p hp hwhole => ⟨fun q hq => ?_,
    fun n hn => ?_⟩⟩
  · rw [houtputs, ByStn.get_set_self]
    rfl
  · rw [houtputs, ByStn.get_set_ne _ _ hk']
    rfl
  · subst hq
    rw [hpoints, pointAt_enterWrite (s := acceptRequest 51 tag s) hp]
    exact (if_pos ⟨rfl, hwhole⟩).trans (flagged_written v _)
  · rw [hpoints, pointAt_enterWrite (s := acceptRequest 51 tag s) hp]
    exact if_neg (fun hall => hn hall.1)

/-! ### Half-periods (R101, R168) -/

theorem lampHalfPeriod_running {s : State} {k d : Nat} (h : (lampAt s k).timer = some d) :
    lampHalfPeriod k s = setLampLine k (lampExpire (max s.now d) (lampAt s k)) (reachTime d s) := by
  rw [lampHalfPeriod, h]
  rfl

theorem cabLampHalfPeriod_running {s : State} {k d : Nat} (h : (cabLamp s k).timer = some d) :
    cabLampHalfPeriod k s = setCabLamp k (lampExpire (max s.now d) (cabLamp s k)) (reachTime d s) := by
  rw [cabLampHalfPeriod, h]
  rfl

theorem setCabLamp_cab (k : Nat) (l : LampRec) (s : State) :
    (setCabLamp k l s).cab = { s.cab with lamps := s.cab.lamps.set k l } := by
  unfold setCabLamp
  dsimp only
  split
  · rfl
  · rw [offerCabWrites_cab]
    rfl

theorem cabLamp_setCabLamp (k : Nat) (l : LampRec) (s : State) (j : Nat) :
    cabLamp (setCabLamp k l s) j = if j = k ∧ k < s.cab.lamps.length then l else cabLamp s j := by
  rw [cabLamp, setCabLamp_cab]
  exact getD_set_lamp _ _ _ _

theorem lampModeCode_toNat (m : LampMode) : ((lampModeCode m).toNat : Int) = lampModeNat m := by cases m <;> rfl

/-- Settles O37. -/
theorem lampHalfPeriodsEnd : Obligations.LampHalfPeriodsEnd := by
  refine ⟨fun s k d hheld htimer hlamps hwhole => ?_, fun s k d hheld htimer hlamps => ?_⟩
  · set l := lampExpire (max s.now d) (lampAt s k.val) with hl
    have hk := k.isLt
    have hwhole' : s.points.length = 256 := hwhole
    have hlamp : lampAt (setLampLine k.val l (reachTime d s)) k.val = l := by
      rw [lampAt_setLampLine]
      exact if_pos ⟨rfl, lt_of_lt_of_eq hk hlamps.symm⟩
    have hframe : ∀ {P : State → Prop}, Image P → P { reachTime d s with lampLines := s.lampLines.set k.val l } →
        P (setLampLine k.val l (reachTime d s)) := fun hP hs => setLocalOutput_keeps hP _ _ _ hs
    refine ⟨_, congrArg Host.Outcome.next ((unlessHeld_of_high hheld).trans (lampHalfPeriod_running htimer)),
      setLampLine_now _ _ _, ?_, ?_, fun j hj => ?_, fun i hi => ?_, hframe (inner_stations _).toImage rfl,
      setLampLine_outputs _ _ _, hframe (panel_groups _).toImage rfl, hframe (panel_owners _).toImage rfl⟩
    · rw [setLampLine_now, ← hl, hlamp, hl]
      exact lampExpire_eq _ _
    · rw [← hl, hlamp, pointAt_setLampLine, lampModeCode_toNat]
      rw [if_pos ⟨rfl, by show 10 + k.val < s.points.length; omega⟩]
      exact (flagged_fields _ _).1
    · rw [lampAt_setLampLine, if_neg (fun hall => hj hall.1)]
      rfl
    · rw [pointAt_setLampLine, if_neg (fun hall => hi hall.1)]
      rfl
  · set l := lampExpire (max s.now d) (cabLamp s k.val) with hl
    have hk := k.isLt
    have hframe : ∀ {P : State → Prop}, Panel P → P (reachTime d s) → P (setCabLamp k.val l (reachTime d s)) :=
      fun hP hs => setCabLamp_keeps hP _ _ _ hs
    have hnow : (setCabLamp k.val l (reachTime d s)).now = max s.now d := hframe (inner_now _).toPanel rfl
    refine ⟨_, congrArg Host.Outcome.next ((unlessHeld_of_high hheld).trans (cabLampHalfPeriod_running htimer)),
      hnow, ?_, fun j hj => ?_, hframe (inner_stations _).toPanel rfl, hframe (inner_lines _).toPanel rfl, ?_, ?_⟩
    · rw [hnow, cabLamp_setCabLamp]
      exact (if_pos ⟨rfl, lt_of_lt_of_eq hk hlamps.symm⟩).trans (lampExpire_eq _ _)
    · rw [cabLamp_setCabLamp]
      exact if_neg (fun hall => hj hall.1)
    · rw [setCabLamp_cab]
      rfl
    · rw [setCabLamp_cab]
      rfl

end Sys2Proof.Proofs
end

section
/-! What the commands of the lines and the local inputs leave alone (R17 to R41, R74, R197), the end of a mode change
(R42, R200), and the verdict of a parameter slot (R41). -/

namespace Sys2Proof.Proofs

open Sys2Proof Sys2Proof.Machine Sys2Proof.Safety Sys2Proof.Laws

/-! ### The frame of the field's commands -/

/-- The commands of the lines and of the local inputs. -/
def FieldCommand (c : Instr) : Prop :=
  (∃ l, c = .cycleStart l ∨ c = .probeSlotStart l ∨ c = .paramSlotStart l) ∨
    (∃ k, c = .stationSlotStart k ∨ c = .holdoffExpiry k) ∨
    (∃ l rx, c = .scanAnswerGood l rx ∨ c = .scanMiss l rx ∨ c = .rollAnswerGood l rx ∨ c = .probeMiss l rx ∨
      c = .paramAnswerGood l rx ∨ c = .paramMiss l rx) ∨
    (∃ k level, c = .localInputFlip k level) ∨ (∃ lin, c = .localInputSample lin)

/-- A field command keeps what is closed under the line's updates and the end of a mode change. -/
theorem fieldCommand_keeps {P : State → Prop} (h : Torn P P) {c : Instr} (hc : FieldCommand c) {s t : State}
    (he : exec c s = .next t) (hs : P s) : P t := by
  have hrow : ∀ {f : State → State}, (∀ s, P s → P (f s)) →
      Host.Outcome.next (φ := Fault) (ρ := Refusal) (unlessHeld f s) = .next t → P t := fun hf e => by
    cases e
    exact unlessHeld_keeps _ hf s hs
  have hsettled : ∀ {f : State → State}, (∀ s, P s → P (f s)) → ∀ s, P s → P (settleChange (f s)) :=
    fun hf s hs => settleChange_keeps h _ (hf s hs)
  have hlink := h.toLink
  rcases hc with ⟨l, rfl | rfl | rfl⟩ | ⟨k, rfl | rfl⟩ | ⟨l, rx, hc⟩ | ⟨k, level, rfl⟩ | ⟨lin, rfl⟩
  · exact hrow (startCycle_keeps hlink l) he
  · exact hrow (probeSlot_keeps hlink l) he
  · exact hrow (paramSlot_keeps hlink l) he
  · exact hrow (stationSlot_keeps hlink k) he
  · exact hrow (holdoffEnds_keeps hlink k) he
  · rcases hc with rfl | rfl | rfl | rfl | rfl | rfl
    · exact hrow (hsettled (scanVerdict_keeps hlink l rx)) he
    · exact hrow (hsettled (scanVerdict_keeps hlink l rx)) he
    · exact hrow (probeVerdict_keeps hlink l rx) he
    · exact hrow (probeVerdict_keeps hlink l rx) he
    · exact hrow (hsettled (paramVerdict_keeps hlink l rx)) he
    · exact hrow (hsettled (paramVerdict_keeps hlink l rx)) he
  · exact hrow (hsettled (setInput_keeps hlink _ _ _)) he
  · exact hrow (hsettled (sampleInputs_keeps hlink lin)) he

/-- A closed claim about what neither a reply nor the mode record touches survives the end of a mode change. -/
theorem torn_of {P : State → Prop} (h : Link P) (hr : ∀ code tag st body s, P s → P (replyBytes code tag st body s))
    (hu : ∀ m s, s.hub.change.isSome = true → P s → P { s with hub := ⟨m, none⟩ }) : Torn P P :=
  ⟨h, ⟨hr⟩, h, hu⟩

/-- Settles O20. -/
theorem fieldCommandsFrame : Obligations.FieldCommandsFrame := by
  intro c s t hc he
  have hkeep : ∀ {P : State → Prop}, Torn P P → P s → P t := fun h hs => fieldCommand_keeps h hc he hs
  have hport : portCore t.port = portCore s.port :=
    hkeep (torn_of (link_portCore _) (fun _ _ _ _ _ h => h) (fun _ _ _ h => h)) rfl
  refine ⟨hkeep (torn_of (link_profiles _) (fun _ _ _ _ _ h => h) (fun _ _ _ h => h)) rfl,
    hkeep (torn_of (link_store _) (fun _ _ _ _ _ h => h) (fun _ _ _ h => h)) rfl,
    hkeep (torn_of (link_lampLines _) (fun _ _ _ _ _ h => h) (fun _ _ _ h => h)) rfl,
    hkeep (torn_of (link_held _) (fun _ _ _ _ _ h => h) (fun _ _ _ h => h)) rfl,
    (congrArg HostPort.table hport :), (congrArg (fun p => p.counters.badCheck) hport :),
    (congrArg HostPort.silent hport :), (congrArg HostPort.silenceTimer hport :), (congrArg HostPort.resetBy hport :),
    hkeep (torn_of (link_length _) (fun _ _ _ _ _ h => h) (fun _ _ _ h => h)) rfl, fun hnone => ?_⟩
  refine hkeep (torn_of (link_hub s.hub) (fun _ _ _ _ _ h => h) (fun m u hsome hu => ?_)) rfl
  rw [hu, hnone] at hsome
  cases hsome

/-! ### The verdict of a parameter slot (R41) -/

section Params

variable {s : State} {k : Stn} {x : Slot} {rx : List RxByte} {tr : Transfer}

/-- The state in which the slot in progress on a line has had its verdict. -/
def slotJudged (l : Line) (x : Slot) (s : State) : State :=
  updLine l (fun e => { e with slot := some { x with judged := true } }) s

theorem withSlot_first {l : Line} {f : Slot → State → State} (h : (s.lines.get l).slot = some x)
    (hfirst : x.judged = false) : withSlot l f s = f x (slotJudged l x s) := by
  rw [withSlot, h]
  simp only [hfirst, Bool.false_eq_true, if_false]
  rfl

theorem paramVerdict_first (hslot : (s.lines.get (lineOf k)).slot = some x) (hkind : x.kind = .param) (hstn : x.stn = k)
    (hfirst : x.judged = false) (hvoid : x.void = false) (htr : (s.stations.get k).transfer = some tr) :
    paramVerdict (lineOf k) rx s =
      settleParam k (judge x .paramAnswer (readParam tr) rx) tr (slotJudged (lineOf k) x s) := by
  subst hstn
  obtain ⟨kind, stn, request, settings, length, judged, void⟩ := x
  subst hkind
  have htr' : ((slotJudged (lineOf stn) ⟨.param, stn, request, settings, length, judged, void⟩ s).stations.get
      stn).transfer = some tr := htr
  unfold paramVerdict
  rw [hslot]
  dsimp only
  rw [withSlot_first hslot hfirst]
  dsimp only at hvoid ⊢
  subst hvoid
  rw [if_neg Bool.false_ne_true, htr']

/-- A transfer's end: its reply, and the record without it. -/
theorem endTransfer_eq (st : Status) (body : List Byte) (htr : (s.stations.get k).transfer = some tr) :
    endTransfer k st body s = replyBytes (transferCode tr.kind) tr.tag st body
      { s with stations := s.stations.set k { s.stations.get k with transfer := none } } := by
  rw [endTransfer, htr]
  rfl

end Params

theorem paramAnswerGood_row {s : State} {l : Line} {rx : List RxByte} (hheld : s.held = false) :
    exec (.paramAnswerGood l rx) s = .next (settleChange (paramVerdict l rx s)) :=
  congrArg Host.Outcome.next (unlessHeld_of_high hheld)

theorem paramMiss_row {s : State} {l : Line} {rx : List RxByte} (hheld : s.held = false) :
    exec (.paramMiss l rx) s = .next (settleChange (paramVerdict l rx s)) :=
  congrArg Host.Outcome.next (unlessHeld_of_high hheld)

/-- Settles O44. -/
theorem paramVerdictsSettleTransfer : Obligations.ParamVerdictsSettleTransfer := by
  intro s k x rx tr u hheld hchange hslot hkind hstn hfirst hvoid htr hu
  have hverdict := paramVerdict_first (rx := rx) hslot hkind hstn hfirst hvoid htr
  have hu' : slotJudged (lineOf k) x s = u := hu.symm
  rw [hu'] at hverdict
  have huchange : u.hub.change = none := by
    rw [hu]
    exact hchange
  have hutr : (u.stations.get k).transfer = some tr := by
    rw [hu]
    exact htr
  have hstations : u.stations = s.stations := by rw [hu]
  have hended : ∀ st body, endTransfer k st body u = replyBytes (transferCode tr.kind) tr.tag st body
      { u with stations := s.stations.set k { s.stations.get k with transfer := none } } := fun st body => by
    rw [endTransfer_eq st body hutr, hstations]
  have hsettled : ∀ st body, settleChange (endTransfer k st body u) = endTransfer k st body u := fun st body => by
    refine settleChange_of_steady ?_
    rw [hended, replyBytes_hub]
    exact huchange
  refine ⟨fun data hjudge => ?_, fun hjudge => ?_, fun why hjudge => ⟨fun hfew => ?_, fun hlast => ?_⟩⟩
  · rw [paramAnswerGood_row hheld, hverdict, hjudge, settleParam, hsettled, hended]
  · rw [paramAnswerGood_row hheld, hverdict, hjudge, settleParam, hsettled, hended]
  · rw [paramMiss_row hheld, hverdict, hjudge, settleParam, if_pos hfew, settleChange_of_steady huchange]
  · rw [paramMiss_row hheld, hverdict, hjudge, settleParam, if_neg (by omega), hsettled, hended]

end Sys2Proof.Proofs
end

section
/-! A departure (R34, R35) in its parts: what the engine, the writer, the record and the window do at once, what the
operation engine and the interlock do on the report, and the unbinding; and the closure that carries a claim through
the later parts. -/

namespace Sys2Proof.Proofs

open Sys2Proof Sys2Proof.Machine Sys2Proof.Safety Sys2Proof.Laws

/-! ### What settles after a departure -/

/-- Closed under what the operation engine, the interlock, the ownership block, the cab service and the alert do when
a group of `G` loses its station. -/
structure Settling (G : Group → Prop) (P : State → Prop) : Prop where
  notice : ∀ kind payload s, P s → P (notice kind payload s)
  alert : ∀ r s, P s → P (raiseAlert r s)
  copy : ∀ g f s, (∀ c : GroupCopy, (f c).bound = c.bound ∧ (f c).station = c.station) → P s → P (handCopy g f s)
  report : ∀ new s, P s → P (reportCabStation new s)
  evaluated : ∀ before g s, G g → P s → P (evaluateFrom before g s)
  release : ∀ r s, P s → P (releaseDrive r s)
  idle : ∀ g s, G g → P s → P (setOp g none s)
  stored : ∀ g src r s, (src = .remote → ∀ q st, r ≠ .refused q st) → P s → P (storeResult g src r s)
  choices : ∀ n s, P s → P { s with choices := n }
  unmark : ∀ g src s, G g → P s → P (updOwner g (fun r => { r with marks := r.marks.set src none }) s)
  unown : ∀ g s, G g → P s → P (updOwner g (fun r => ⟨.none, r.generation + 1, ⟨none, none⟩⟩) s)

theorem reportCabStation_panel {P : State → Prop} (h : Panel P) (new : StationState) (s : State) (hs : P s) :
    P (reportCabStation new s) := by
  unfold reportCabStation
  dsimp only
  split
  · exact offerCabWrites_keeps h _ (h.cab _ _ hs)
  · exact h.cab _ _ hs

theorem Settling.of_inner {P : State → Prop} (h : Inner P) (hchoices : ∀ n s, P s → P { s with choices := n })
    (G : Group → Prop) : Settling G P where
  notice := h.notice
  alert r s hs := raiseAlert_keeps h.toPanel r s hs
  copy g f s _ hs := handCopy_keeps h.toPanel g f s hs
  report := reportCabStation_panel h.toPanel
  evaluated before g s _ hs := evaluateFrom_keeps h.toLocal before g s hs
  release := releaseDrive_keeps h.toLocal
  idle g s _ hs := h.op g none s hs
  stored := storeResult_keeps h.toLocal
  choices := hchoices
  unmark g src s _ hs := h.unmark g src s hs
  unown g s _ hs := h.owner g .none s hs

/-- A claim that the cab service's updates and any output write leave alone. -/
theorem Settling.of_panel {G : Group → Prop} {P : State → Prop} (h : Panel P)
    (hevaluated : ∀ before g s, G g → P s → P (evaluateFrom before g s))
    (hidle : ∀ g s, G g → P s → P (setOp g none s)) (hresults : ∀ x s, P s → P { s with results := x })
    (hchoices : ∀ n s, P s → P { s with choices := n })
    (hunmark : ∀ g src s, G g → P s → P (updOwner g (fun r => { r with marks := r.marks.set src none }) s))
    (hunown : ∀ g s, G g → P s → P (updOwner g (fun r => ⟨.none, r.generation + 1, ⟨none, none⟩⟩) s)) :
    Settling G P where
  notice := h.notice
  alert r s hs := raiseAlert_keeps h r s hs
  copy g f s _ hs := handCopy_keeps h g f s hs
  report := reportCabStation_panel h
  evaluated := hevaluated
  release r s hs := by
    unfold releaseDrive
    split
    · split
      · exact releaseWrite_keeps h.toImage _ _ _ hs
      · exact hs
    · exact hs
  idle := hidle
  stored g src r s _ hs := by
    have hset := fun x => hresults x s hs
    cases src with
    | cab => exact handCopy_keeps h _ _ _ (hset _)
    | remote => exact hset _
  choices := hchoices
  unmark := hunmark
  unown := hunown

section Settles

variable {G : Group → Prop} {P : State → Prop} (h : Settling G P)

include h

theorem endOperation_settling {g : Group} (hg : G g) (e : Ending) (s : State) (hs : P s) : P (endOperation g e s) := by
  unfold endOperation
  split
  · exact hs
  · rename_i r _
    have hstored := h.stored g r.source (endResult r e) _ (fun _ => by cases e <;> simp [endResult])
      (h.idle g _ hg (h.release r s hs))
    dsimp only
    refine h.evaluated _ _ _ hg ?_
    split
    · exact h.alert _ _ (h.notice _ _ _ hstored)
    · exact h.notice _ _ _ hstored

theorem handToEngine_settling {g : Group} (hg : G g) (s : State) (hs : P s) : P (handToEngine g s) := by
  unfold handToEngine
  split
  · exact hs
  · dsimp only
    split
    · exact endOperation_settling h hg _ _ hs
    · split
      · exact endOperation_settling h hg _ _ hs
      · exact hs

theorem evaluate_settling {g : Group} (hg : G g) (s : State) (hs : P s) : P (evaluate g s) := by
  unfold evaluate
  split
  · exact handToEngine_settling h hg _ (h.evaluated _ _ _ hg hs)
  · exact hs

theorem departGroup_settling {g : Group} (hg : G g) (s : State) (hs : P s) : P (departGroup g s) := by
  unfold departGroup
  split
  · split
    · dsimp only
      split
      · exact endOperation_settling h hg _ _ (evaluate_settling h hg _ (h.choices _ _ hs))
      · exact evaluate_settling h hg _ (endOperation_settling h hg _ _ (h.choices _ _ hs))
    · exact evaluate_settling h hg _ (endOperation_settling h hg _ _ hs)
  · exact evaluate_settling h hg _ hs

theorem ownerChange_settling {g : Group} (hg : G g) (c : ClaimCause) (a : AbortReason) (s : State) (hs : P s) :
    P (ownerChange g .none c a s) :=
  endOperation_settling h hg _ _ (h.copy g (fun c => { c with owner := .none, cabMark := false }) _
    (fun _ => ⟨rfl, rfl⟩) (h.notice _ _ _ (h.unown g s hg hs)))

theorem removeMark_settling {g : Group} (hg : G g) (src : Source) (s : State) (hs : P s) : P (removeMark g src s) := by
  unfold removeMark
  split
  · have hset := h.unmark g src s hg hs
    cases src with
    | cab => exact h.copy g (fun c => { c with cabMark := false }) _ (fun _ => ⟨rfl, rfl⟩) hset
    | remote => exact hset
  · exact hs

theorem unboundLapse_settling {g : Group} (hg : G g) (s : State) (hs : P s) : P (unboundLapse g s) := by
  unfold unboundLapse
  split
  · exact removeMark_settling h hg _ _ (removeMark_settling h hg _ _ hs)
  · exact ownerChange_settling h hg _ _ _ hs

theorem loseSource_settling {g : Group} (hg : G g) (src : Source) (c : ClaimCause) (s : State) (hs : P s) :
    P (loseSource src c g s) := by
  unfold loseSource
  split
  · exact ownerChange_settling h hg _ _ _ hs
  · exact removeMark_settling h hg _ _ hs

theorem cabLost_settling (hG : ∀ g, G g) (s : State) (hs : P s) : P (cabLost s) :=
  loseSource_settling h (hG .b) _ _ _ (loseSource_settling h (hG .a) _ _ _ hs)

theorem stationFault_settling (k : Stn) (s : State) (hs : P s) : P (stationFault k s) := by
  unfold stationFault
  dsimp only
  split
  · exact h.alert _ _ hs
  · exact hs

end Settles

/-! ### A departure in its parts -/

/-- When a HOLDOFF that begins now ends (R32). -/
def leaveExpiry (k : Stn) (new : StationState) (s : State) : Option Nat :=
  if new = .holdoff then some (s.now + retryLength s k) else none

/-- R118's test at a departure. -/
def leftLoaded (k : Stn) (s : State) : Bool :=
  isOnline (stateOf s k) && ((groupAt s k).map (fun g => loadedNotLanded (s.groups.get g))).getD false

/-- The departing record, its window still mapped (R34). -/
def leaveRecord (k : Stn) (new : StationState) (cause : LastCause) (s : State) : State :=
  updStation k (departRecord new cause (leaveExpiry k new s)) (endTransfer k .linkLost []
    (updOut k (departOut (new = .absent)) (updLine (lineOf k) (departEngine k) s)))

/-- The part of a departure ahead of its reports: schedule, output writer, transfer, record, window (R34, R35). -/
def leaveStart (k : Stn) (new : StationState) (cause : LastCause) (s : State) : State :=
  let u := departWindow new (profileOf s k) (leaveRecord k new cause s)
  stationNotice k (if new = .absent then { u with staleLimits := u.staleLimits.set k none, raw := u.raw.set k none }
    else u)

/-- The alert of R118. -/
def leaveAlert (loaded : Bool) (s : State) : State := if loaded then raiseAlert .linkLostLoaded s else s

/-- The operation engine and the interlock on the report. -/
def leaveGroup (grp : Option Group) (s : State) : State :=
  match grp with
  | some g => departGroup g s
  | none => s

/-- The unbinding (R104). -/
def leaveUnbind (new : StationState) (grp : Option Group) (s : State) : State :=
  match grp with
  | some g => if new = .absent then unbindGroup g s else s
  | none => s

/-- The alert of a FAULT, or the cab service's part. -/
def leaveReport (k : Stn) (new : StationState) (online : Bool) (s : State) : State :=
  match lineOf k with
  | .s => if new = .fault then stationFault k s else s
  | .c => reportCabStation new (if online then cabLost s else s)

theorem leave_eq (k : Stn) (new : StationState) (cause : LastCause) (s : State) :
    leave k new cause s = leaveReport k new (isOnline (stateOf s k)) (leaveUnbind new (groupAt s k)
      (updStation k (dropProfile new) (leaveGroup (groupAt s k)
        (leaveAlert (leftLoaded k s) (leaveStart k new cause s))))) := rfl

section Parts

variable {G : Group → Prop} {P : State → Prop} (h : Settling G P)

include h

theorem leaveAlert_settling (loaded : Bool) (s : State) (hs : P s) : P (leaveAlert loaded s) := by
  unfold leaveAlert
  split
  · exact h.alert _ _ hs
  · exact hs

theorem leaveGroup_settling {grp : Option Group} (hg : ∀ g, grp = some g → G g) (s : State) (hs : P s) :
    P (leaveGroup grp s) := by
  unfold leaveGroup
  split
  · exact departGroup_settling h (hg _ rfl) _ hs
  · exact hs

theorem leaveUnbind_settling {new : StationState} {grp : Option Group} (hg : ∀ g, grp = some g → G g)
    (hunbind : ∀ g s, grp = some g → new = .absent → P s → P (unbindRecord g s)) (s : State) (hs : P s) :
    P (leaveUnbind new grp s) := by
  unfold leaveUnbind
  split
  · split
    · rename_i hnew
      exact unboundLapse_settling h (hg _ rfl) _ (hunbind _ _ rfl hnew hs)
    · exact hs
  · exact hs

theorem leaveReport_settling {k : Stn} (hG : lineOf k = .c → ∀ g, G g) (new : StationState) (online : Bool) (s : State)
    (hs : P s) : P (leaveReport k new online s) := by
  unfold leaveReport
  split
  · split
    · exact stationFault_settling h _ _ hs
    · exact hs
  · rename_i hline
    refine h.report _ _ ?_
    split
    · exact cabLost_settling h (hG hline) _ hs
    · exact hs

/-- A claim that a departure's first part establishes stands at its end. -/
theorem leave_settling {k : Stn} {new : StationState} {cause : LastCause} {s : State}
    (hg : ∀ g, groupAt s k = some g → G g) (hG : lineOf k = .c → ∀ g, G g)
    (hdrop : ∀ u, P u → P (updStation k (dropProfile new) u))
    (hunbind : ∀ g u, groupAt s k = some g → new = .absent → P u → P (unbindRecord g u))
    (hs : P (leaveStart k new cause s)) : P (leave k new cause s) := by
  rw [leave_eq]
  exact leaveReport_settling h hG _ _ _ (leaveUnbind_settling h hg hunbind _ (hdrop _
    (leaveGroup_settling h hg _ (leaveAlert_settling h _ _ hs))))

end Parts

section InnerParts

variable {P Q : State → Prop} (h : Inner P) (hchoices : ∀ n s, P s → P { s with choices := n }) (h' : Inner Q)
  (hchoices' : ∀ n s, Q s → Q { s with choices := n }) {k : Stn} {new : StationState} {cause : LastCause} {s : State}

include h hchoices h' hchoices'

/-- A claim of the inner closure, which the loss of the profile changes once. -/
theorem leave_dropping (hdrop : ∀ u, P u → Q (updStation k (dropProfile new) u))
    (hs : P (leaveStart k new cause s)) : Q (leave k new cause s) := by
  have hP := Settling.of_inner h hchoices (fun _ => True)
  have hQ := Settling.of_inner h' hchoices' (fun _ => True)
  rw [leave_eq]
  exact leaveReport_settling hQ (fun _ _ => trivial) _ _ _ (leaveUnbind_settling hQ (fun _ _ => trivial)
    (fun g u _ _ hu => unbindRecord_keeps h'.toLocal g u hu) _ (hdrop _
      (leaveGroup_settling hP (fun _ _ => trivial) _ (leaveAlert_settling hP _ _ hs))))

end InnerParts

/-- A claim of the inner closure that the loss of the profile leaves alone. -/
theorem leave_inner {P : State → Prop} (h : Inner P) (hchoices : ∀ n s, P s → P { s with choices := n }) {k : Stn}
    {new : StationState} {cause : LastCause} {s : State} (hdrop : ∀ u, P u → P (updStation k (dropProfile new) u))
    (hs : P (leaveStart k new cause s)) : P (leave k new cause s) :=
  leave_dropping h hchoices h hchoices hdrop hs

/-! ### The first part, field by field -/

theorem notice_state (kind : NoticeKind) (payload : List Byte) (s : State) :
    notice kind payload s = { s with port := (notice kind payload s).port } := by
  rcases notice_cases kind payload s with ⟨-, e⟩ | ⟨-, -, e⟩ | ⟨-, -, e⟩ <;> rw [e] <;> rfl

theorem commitQuiet_state (new : List Point) (s : State) :
    commitQuiet new s = { s with points := flagChanges s.points new, port := (commitQuiet new s).port } :=
  foldl_keeps (P := fun t => t = { s with points := flagChanges s.points new, port := t.port }) pointNotice
    (fun t c ht => by
      unfold pointNotice
      split
      · rw [notice_state, ht]
      · exact ht) _ _ rfl

theorem departWindow_state (new : StationState) (p : Option Profile) (s : State) :
    departWindow new p s = { s with points := (departWindow new p s).points, port := (departWindow new p s).port } := by
  unfold departWindow
  split
  · rw [commitQuiet_state]
  · rfl

theorem endTransfer_state (k : Stn) (st : Status) (body : List Byte) (s : State) :
    endTransfer k st body s = { s with
      stations := s.stations.set k { s.stations.get k with transfer := none }
      port := (endTransfer k st body s).port } := by
  cases htransfer : (s.stations.get k).transfer with
  | none =>
    have hrecord : ({ s.stations.get k with transfer := none } : StationRec) = s.stations.get k := by
      rw [← htransfer]
    rw [endTransfer, htransfer, hrecord, ByStn.set_get]
  | some x =>
    rw [endTransfer, htransfer]
    rfl

theorem leaveRecord_state (k : Stn) (new : StationState) (cause : LastCause) (s : State) :
    leaveRecord k new cause s = { s with
      lines := s.lines.set (lineOf k) (departEngine k (s.lines.get (lineOf k)))
      outputs := s.outputs.set k (departOut (new = .absent) (s.outputs.get k))
      stations := s.stations.set k
        (departRecord new cause (leaveExpiry k new s) { s.stations.get k with transfer := none })
      port := (leaveRecord k new cause s).port } := by
  unfold leaveRecord
  rw [endTransfer_state]
  simp [updStation, updOut, updLine]

theorem stationNotice_state (k : Stn) (s : State) :
    stationNotice k s = { s with port := (stationNotice k s).port } := notice_state _ _ _

theorem leaveStart_state (k : Stn) (new : StationState) (cause : LastCause) (s : State) :
    leaveStart k new cause s = { s with
      lines := s.lines.set (lineOf k) (departEngine k (s.lines.get (lineOf k)))
      outputs := s.outputs.set k (departOut (new = .absent) (s.outputs.get k))
      stations := s.stations.set k
        (departRecord new cause (leaveExpiry k new s) { s.stations.get k with transfer := none })
      points := (leaveStart k new cause s).points
      port := (leaveStart k new cause s).port
      staleLimits := if new = .absent then s.staleLimits.set k none else s.staleLimits
      raw := if new = .absent then s.raw.set k none else s.raw } := by
  unfold leaveStart
  dsimp only
  rw [stationNotice_state, departWindow_state, leaveRecord_state]
  split <;> rfl

/-! ### What a departure makes of the lines, the records and the stores -/

section Frames

variable (k : Stn) (new : StationState) (cause : LastCause) (s : State)

theorem leave_lines : (leave k new cause s).lines =
    s.lines.set (lineOf k) (departEngine k (s.lines.get (lineOf k))) := by
  refine leave_inner (inner_lines _) (fun _ _ h => h) (fun _ h => h) ?_
  rw [leaveStart_state]

/-- The record that a departure leaves (R34, R35). -/
def leftRecord (k : Stn) (new : StationState) (cause : LastCause) (s : State) : StationRec :=
  dropProfile new (departRecord new cause (leaveExpiry k new s) { s.stations.get k with transfer := none })

theorem leave_stations : (leave k new cause s).stations = s.stations.set k (leftRecord k new cause s) := by
  refine leave_dropping (inner_stations (s.stations.set k
      (departRecord new cause (leaveExpiry k new s) { s.stations.get k with transfer := none })))
    (fun _ _ h => h) (inner_stations _) (fun _ _ h => h) (fun u hu => ?_) ?_
  · simp only [updStation, hu, ByStn.get_set_self, ByStn.set_set]
    rfl
  · rw [leaveStart_state]

theorem leave_raw :
    (leave k new cause s).raw = if new = .absent then s.raw.set k none else s.raw := by
  refine leave_inner (inner_raw _) (fun _ _ h => h) (fun _ h => h) ?_
  rw [leaveStart_state]

theorem leave_staleLimits :
    (leave k new cause s).staleLimits = if new = .absent then s.staleLimits.set k none else s.staleLimits := by
  refine leave_inner (inner_staleLimits _) (fun _ _ h => h) (fun _ h => h) ?_
  rw [leaveStart_state]

theorem leave_profiles : (leave k new cause s).profiles = s.profiles := by
  refine leave_inner (inner_profiles _) (fun _ _ h => h) (fun _ h => h) ?_
  rw [leaveStart_state]

theorem leave_hub : (leave k new cause s).hub = s.hub := by
  refine leave_inner (inner_hub _) (fun _ _ h => h) (fun _ h => h) ?_
  rw [leaveStart_state]

theorem leave_store : (leave k new cause s).store = s.store := by
  refine leave_inner (inner_store _) (fun _ _ h => h) (fun _ h => h) ?_
  rw [leaveStart_state]

theorem leave_points_length : (leave k new cause s).points.length = s.points.length :=
  leave_keeps (link_length _) k new cause s rfl

end Frames

end Sys2Proof.Proofs
end

section
/-! What a departure leaves of the station's writer, its transfer's reply, its window and its group (R34, R35, R104,
R118, R135, R152). -/

namespace Sys2Proof.Proofs

open Sys2Proof Sys2Proof.Machine Sys2Proof.Safety Sys2Proof.Laws

/-! ### The output record -/

theorem Settling.of_beside {P : State → Prop} (h : Beside P) (hrelease : ∀ r s, P s → P (releaseDrive r s))
    (hchoices : ∀ n s, P s → P { s with choices := n }) (G : Group → Prop) : Settling G P where
  notice := h.notice
  alert := raiseAlert_beside h
  copy g f s _ hs := handCopy_beside h g f s hs
  report new s hs := by
    unfold reportCabStation
    dsimp only
    split
    · exact offerCabWrites_beside h _ (h.cab _ _ hs)
    · exact h.cab _ _ hs
  evaluated before g s _ hs := evaluateFrom_beside h before g s hs
  release := hrelease
  idle g s _ hs := h.ops _ s hs
  stored g src r s _ hs := storeResult_beside h g src r s hs
  choices := hchoices
  unmark g src s _ hs := h.owners _ s hs
  unown g s _ hs := h.owners _ s hs

/-- A station that is not scanned, with nothing pending for it. -/
def WriterIdle (k : Stn) (unmapped : Bool) (t : State) : Prop :=
  isScanned (stateOf t k) = false ∧ (t.outputs.get k).list = [] ∧ (t.outputs.get k).inFlight = none ∧
    (unmapped = true → (t.outputs.get k).intended = [])

section Writers

variable {k : Stn} {unmapped : Bool}

theorem writerIdle_congr {s t : State} (hstations : t.stations = s.stations)
    (houtputs : t.outputs.get k = s.outputs.get k)
    (h : WriterIdle k unmapped s) : WriterIdle k unmapped t := by
  unfold WriterIdle stateOf
  rwa [hstations, houtputs]

theorem stations_enterWrite (i : Stn) (j : Nat) (v : Word) (s : State) :
    (enterWrite i j v s).stations = s.stations := enterWrite_keeps (inner_stations _).toImage _ _ _ _ rfl

theorem writerIdle_enterWrite {i : Stn} (j : Nat) (v : Word) {s : State} (hi : i ≠ k) (h : WriterIdle k unmapped s) :
    WriterIdle k unmapped (enterWrite i j v s) :=
  writerIdle_congr (stations_enterWrite _ _ _ _) (by rw [enterWrite_outputs, ByStn.get_set_ne _ _ hi.symm]) h

theorem beside_writerIdle (k : Stn) (unmapped : Bool) : Beside (WriterIdle k unmapped) where
  notice _ _ _ h := writerIdle_congr (notice_stations _ _ _) (by rw [notice_outputs]) h
  cab _ _ h := h
  lampWrite n v s _ hscanned h := by
    refine writerIdle_enterWrite n v (fun hk => ?_) h
    subst hk
    rw [h.1] at hscanned
    cases hscanned
  permitLine g v s h :=
    writerIdle_congr (setLocalOutput_keeps (inner_stations _).toImage _ _ _ rfl)
      (by rw [setLocalOutput_outputs]) h
  groups _ _ h := h
  permitPins _ _ h := h
  owners _ _ h := h
  ops _ _ h := h
  results _ _ h := h

theorem writerIdle_parked {s : State} (i : Stn) (j : Nat) (h : WriterIdle k unmapped s) :
    WriterIdle k unmapped (updOut i (fun o => { o with intended := o.intended.set j 0 }) s) := by
  obtain ⟨hstate, hlist, hflight, hintended⟩ := h
  unfold WriterIdle
  rw [updOut, ByStn.get_set]
  split
  · rename_i hi
    subst hi
    exact ⟨hstate, hlist, hflight, fun hun => by rw [hintended hun]; rfl⟩
  · exact ⟨hstate, hlist, hflight, hintended⟩

theorem writerIdle_releaseWrite (i : Stn) (j : Nat) (s : State) (h : WriterIdle k unmapped s) :
    WriterIdle k unmapped (releaseWrite i j s) := by
  have hscan : isScanned (stateOf s i) = true → WriterIdle k unmapped (releaseWrite i j s) := fun hscanned => by
    by_cases hroom : ReleaseRoom j (s.outputs.get i)
    · rw [releaseWrite_enters hscanned hroom]
      refine writerIdle_enterWrite j 0 (fun hi => ?_) h
      subst hi
      rw [h.1] at hscanned
      cases hscanned
    · rwa [releaseWrite_full hscanned hroom]
  cases hstate : stateOf s i with
  | joining | online | degraded => exact hscan (by rw [hstate]; rfl)
  | absent => rwa [releaseWrite_unmapped (Or.inl hstate)]
  | refused => rwa [releaseWrite_unmapped (Or.inr hstate)]
  | holdoff | fault =>
    have hparked := writerIdle_parked i j h
    unfold releaseWrite
    rw [hstate]
    dsimp only
    split
    · exact writerIdle_congr (setLocalOutput_keeps (inner_stations _).toImage _ _ _ rfl)
        (by rw [setLocalOutput_outputs]) hparked
    · exact hparked

theorem settling_writerIdle (k : Stn) (unmapped : Bool) (G : Group → Prop) : Settling G (WriterIdle k unmapped) := by
  refine Settling.of_beside (beside_writerIdle k unmapped) (fun r s hs => ?_) (fun _ _ h => h) G
  unfold releaseDrive
  split
  · split
    · exact writerIdle_releaseWrite _ _ _ hs
    · exact hs
  · exact hs

end Writers

/-- The loss of the profile moves no station's state. -/
theorem stateOf_dropProfile (k i : Stn) (new : StationState) (s : State) :
    stateOf (updStation k (dropProfile new) s) i = stateOf s i := by
  rw [stateOf, stateOf, updStation, ByStn.get_set]
  split
  · rename_i h
    rw [h]
    rfl
  · rfl

theorem writerIdle_dropProfile {k i : Stn} {unmapped : Bool} {new : StationState} {s : State}
    (h : WriterIdle k unmapped s) : WriterIdle k unmapped (updStation i (dropProfile new) s) := by
  obtain ⟨hstate, hout⟩ := h
  refine ⟨?_, hout⟩
  rwa [stateOf_dropProfile]

theorem unbindRecord_beside {P : State → Prop} (h : Beside P) (g : Group) (s : State) (hs : P s) :
    P (unbindRecord g s) := publishGroup_beside h _ _ _ (h.groups _ s hs)

/-- A departure leaves the writer idle. -/
theorem leave_writerIdle {k : Stn} {new : StationState} (hnew : isScanned new = false) (cause : LastCause) (s : State) :
    WriterIdle k (decide (new = .absent)) (leave k new cause s) := by
  refine leave_settling (settling_writerIdle k _ (fun _ => True)) (fun _ _ => trivial) (fun _ _ => trivial)
    (fun _ hu => writerIdle_dropProfile hu) (fun g u _ _ hu => unbindRecord_beside (beside_writerIdle _ _) g u hu) ?_
  rw [leaveStart_state]
  refine ⟨?_, ?_, ?_, fun habsent => ?_⟩
  · simp [stateOf, departRecord, hnew]
  · simp [departOut]
  · simp [departOut]
  · simp only [ByStn.get_set_self, departOut, habsent, if_true]

/-- A writer that is idle stays so when another station departs. -/
theorem leave_keeps_writerIdle {k i : Stn} (hi : i ≠ k) {unmapped : Bool} {new : StationState} (cause : LastCause)
    {s : State} (h : WriterIdle k unmapped s) : WriterIdle k unmapped (leave i new cause s) := by
  refine leave_settling (settling_writerIdle k _ (fun _ => True)) (fun _ _ => trivial) (fun _ _ => trivial)
    (fun _ hu => writerIdle_dropProfile hu) (fun g u _ _ hu => unbindRecord_beside (beside_writerIdle _ _) g u hu) ?_
  rw [leaveStart_state]
  obtain ⟨hstate, hlist, hflight, hintended⟩ := h
  refine ⟨?_, ?_, ?_, fun hun => ?_⟩
  · rw [stateOf, ByStn.get_set_ne _ _ hi.symm]
    exact hstate
  · rw [ByStn.get_set_ne _ _ hi.symm, hlist]
  · rw [ByStn.get_set_ne _ _ hi.symm, hflight]
  · rw [ByStn.get_set_ne _ _ hi.symm, hintended hun]

/-! ### The reply of a transfer that is lost -/

theorem link_message (m : Message) : Link (fun t => m ∈ t.port.fifo) :=
  ⟨⟨⟨⟨⟨fun _ _ _ h => h, fun _ _ _ _ h => h, fun kind payload s h => by
    rcases notice_cases kind payload s with ⟨-, e⟩ | ⟨-, -, e⟩ | ⟨-, -, e⟩ <;> rw [e]
    · exact h
    · exact h
    · exact List.mem_append_left _ h⟩, fun _ _ h => h⟩,
    fun _ _ _ _ h => h, fun _ _ h => h, fun _ _ _ h => h, fun _ _ _ _ _ h => h⟩,
    fun _ _ _ h => h, fun _ _ _ _ h => h, fun _ _ _ h => h⟩,
    fun _ _ _ h => h, fun _ _ _ h => h, fun _ _ _ h => h, fun _ _ _ _ h => h,
    settle_of (fun _ _ _ h => h) (fun _ _ _ _ _ h => List.mem_append_left _ h), fun _ _ h => h, fun _ _ h => h,
    fun _ _ h => h, fun _ _ h => h⟩

theorem leaveStart_keeps {P : State → Prop} (h : Link P) (k : Stn) (new : StationState) (cause : LastCause) (s : State)
    (hs : P (leaveRecord k new cause s)) : P (leaveStart k new cause s) := by
  have hwindow := departWindow_keeps h new (profileOf s k) _ hs
  unfold leaveStart
  dsimp only
  generalize departWindow new (profileOf s k) _ = u at hwindow ⊢
  refine stationNotice_keeps h _ _ ?_
  split
  · exact h.raw (u.raw.set k none) _ (h.stale (u.staleLimits.set k none) _ hwindow)
  · exact hwindow

/-- The transfer of a station that departs is answered LINK_LOST (R34). -/
theorem leave_linkLost {k : Stn} {new : StationState} {cause : LastCause} {s : State} {x : Transfer}
    (h : (s.stations.get k).transfer = some x) :
    (⟨.countedReply, transferCode x.kind, x.tag, [20], false, false⟩ : Message) ∈
      (leave k new cause s).port.fifo := by
  refine leave_inner (link_message _).toInner (fun _ _ h => h) (fun _ h => h)
    (leaveStart_keeps (link_message _) k new cause s ?_)
  have h' : ((updOut k (departOut (new = .absent)) (updLine (lineOf k) (departEngine k) s)).stations.get k).transfer =
      some x := h
  unfold leaveRecord
  rw [endTransfer_eq _ _ h']
  exact List.mem_append_right _ (List.mem_singleton.2 rfl)

/-! ### The window -/

theorem getD_mapWindow (f : Nat → Point → Point) (b n : Nat) (ps : List Point) (i : Nat) :
    (mapWindow f b n ps).getD i Point.unmapped =
      if b ≤ i ∧ i < b + n ∧ i < ps.length then f (i - b) (ps.getD i Point.unmapped)
      else ps.getD i Point.unmapped := by
  rw [mapWindow_eq, List.getD_eq_getElem?_getD, List.getElem?_mapIdx, List.getD_eq_getElem?_getD]
  by_cases hlt : i < ps.length
  · rw [List.getElem?_eq_getElem hlt]
    simp only [Option.map_some, Option.getD_some]
    by_cases hin : b ≤ i ∧ i < b + n
    · rw [if_neg (by omega), if_pos ⟨hin.1, hin.2, hlt⟩]
    · rw [if_pos (by omega), if_neg (fun hall => hin ⟨hall.1, hall.2.1⟩)]
  · rw [List.getElem?_eq_none (by omega), if_neg (fun hall => hlt hall.2.2)]
    rfl

/-- The quality of a point that is neither GOOD nor PENDING moves with samples and mappings only. -/
theorem quality_of_quiet {old new : List Point} (h : Quiet old new) {i : Nat} {q : Quality} (hgood : q ≠ .good)
    (hpending : q ≠ .pending) (hq : (old.getD i Point.unmapped).quality = q) :
    (new.getD i Point.unmapped).quality = q := by
  have hsteady := congrArg Point.quality (h.getD i)
  simp only [steady] at hsteady
  rw [hq, if_neg hpending] at hsteady
  by_cases hnew : (new.getD i Point.unmapped).quality = .pending
  · rw [if_pos hnew] at hsteady
    exact absurd hsteady.symm hgood
  · rwa [if_neg hnew] at hsteady

theorem inner_quality (i : Nat) {q : Quality} (hgood : q ≠ .good) (hpending : q ≠ .pending) :
    Inner (fun t => (pointAt t i).quality = q) :=
  ⟨⟨⟨⟨fun _ _ e h => quality_of_quiet e hgood hpending h, fun _ _ _ _ h => h,
      fun _ _ _ h => by rwa [notice_pointAt]⟩, fun _ _ h => h⟩,
    fun _ _ _ _ h => h, fun _ _ h => h, fun _ _ _ h => h, fun _ _ _ _ _ h => h⟩,
    fun _ _ _ h => h, fun _ _ _ _ h => h, fun _ _ _ h => h⟩

/-- What a departure makes of a point (R65, R66), up to its changed flag. -/
def leftPoint (new : StationState) (q : Point) : Point :=
  if new = .absent then unmapPoint q else { q with quality := .stale }

theorem leaveStart_pointAt (k : Stn) (new : StationState) (cause : LastCause) (s : State) (i : Nat) :
    pointAt (leaveStart k new cause s) i = (match profileOf s k with
      | none => pointAt s i
      | some p =>
        if p.base ≤ i ∧ i < p.base + windowSize p ∧ i < s.points.length then
          flagged (pointAt s i) (leftPoint new (pointAt s i))
        else pointAt s i) := by
  have hrecord : ∀ j, pointAt (leaveRecord k new cause s) j = pointAt s j := fun j => by
    rw [leaveRecord_state]
    rfl
  have hpoints : (leaveRecord k new cause s).points = s.points := by rw [leaveRecord_state]
  have hwindow : pointAt (leaveStart k new cause s) i =
      pointAt (departWindow new (profileOf s k) (leaveRecord k new cause s)) i := by
    unfold leaveStart
    dsimp only
    rw [stationNotice, notice_pointAt]
    split <;> rfl
  rw [hwindow]
  unfold departWindow
  cases profileOf s k with
  | none => exact hrecord i
  | some p =>
    dsimp only
    have hlength : ((if new = .absent then unmapProfileWindow p else staleProfileWindow p)
        (leaveRecord k new cause s).points).length = (leaveRecord k new cause s).points.length := by
      split <;> exact length_mapWindow _ _ _ _
    rw [pointAt_commitQuiet hlength, hrecord, hpoints]
    have hmapped : ((if new = .absent then unmapProfileWindow p else staleProfileWindow p) s.points).getD i
        Point.unmapped = if p.base ≤ i ∧ i < p.base + windowSize p ∧ i < s.points.length then
          leftPoint new (pointAt s i) else pointAt s i := by
      unfold leftPoint
      by_cases hnew : new = .absent
      · simp only [if_pos hnew]
        exact getD_mapWindow _ _ _ _ _
      · simp only [if_neg hnew]
        exact getD_mapWindow _ _ _ _ _
    rw [hmapped]
    split
    · rfl
    · exact flagged_self _

theorem leftPoint_quality (new : StationState) (q : Point) :
    (leftPoint new q).quality = if decide (new = .absent) then .unmapped else .stale := by
  unfold leftPoint
  by_cases hnew : new = .absent <;> simp [hnew, unmapPoint, Point.unmapped]

/-- The points of a departing station's window (R34, R65, R66). -/
theorem leave_window {k : Stn} {p : Profile} {s : State} (new : StationState) (cause : LastCause) {i : Nat}
    (hp : profileOf s k = some p) (hlow : p.base ≤ i) (hhigh : i < p.base + windowSize p)
    (hwhole : i < s.points.length) :
    (pointAt (leave k new cause s) i).quality = if decide (new = .absent) then .unmapped else .stale := by
  refine leave_inner (inner_quality i ?_ ?_) (fun _ _ h => h) (fun _ h => h) ?_
  · split <;> simp
  · split <;> simp
  · rw [leaveStart_pointAt, hp]
    dsimp only
    rw [if_pos ⟨hlow, hhigh, hwhole⟩, (flagged_fields _ _).2.1, leftPoint_quality]

/-- A point that is UNMAPPED stays so when a station goes to ABSENT. -/
theorem leave_keeps_unmapped {k : Stn} {s : State} (cause : LastCause) {i : Nat}
    (h : (pointAt s i).quality = .unmapped) : (pointAt (leave k .absent cause s) i).quality = .unmapped := by
  refine leave_inner (inner_quality i (by simp) (by simp)) (fun _ _ h => h) (fun _ h => h) ?_
  rw [leaveStart_pointAt]
  cases profileOf s k with
  | none => exact h
  | some p =>
    dsimp only
    split
    · rw [(flagged_fields _ _).2.1, leftPoint_quality]
      rfl
    · exact h

end Sys2Proof.Proofs
end

section
/-! What a departure leaves of the station's group (R104, R118, R135, R152), and the departure whole. -/

namespace Sys2Proof.Proofs

open Sys2Proof Sys2Proof.Machine Sys2Proof.Safety Sys2Proof.Laws

/-! ### The station's group -/

theorem groupAt_some {s : State} {k : Stn} {g : Group} (h : groupAt s k = some g) :
    (s.groups.get g).bound = true ∧ (s.groups.get g).station = some k := by
  have htest := List.find?_some h
  simpa using htest

/-- No operation in flight on a group. -/
theorem settling_idle (g : Group) (G : Group → Prop) : Settling G (fun t => t.ops.get g = none) := by
  refine Settling.of_panel ⟨⟨fun _ _ _ h => h, fun _ _ _ _ h => h, fun _ _ _ h => by rwa [notice_ops]⟩, fun _ _ h => h⟩
    (fun before g' s _ hs => ?_) (fun g' s _ hs => ?_) (fun _ _ h => h) (fun _ _ h => h) (fun _ _ _ _ h => h)
    (fun _ _ _ h => h)
  · rwa [(evaluateFrom_frame _ _ _).1]
  · rw [setOp, ByGroup.get_set]
    split
    · rfl
    · exact hs

theorem departGroup_idle (g : Group) (s : State) : (departGroup g s).ops.get g = none := by
  have hsettle := settling_idle g (fun _ => True)
  unfold departGroup
  split
  · split
    · dsimp only
      split
      · exact endOperation_idle _ _ _
      · exact evaluate_settling hsettle trivial _ (endOperation_idle _ _ _)
    · exact evaluate_settling hsettle trivial _ (endOperation_idle _ _ _)
  · rename_i hnone
    exact evaluate_settling hsettle trivial _ hnone

section Phases

variable {G : Group → Prop} {P : State → Prop} (h : Settling G P) {k : Stn} {new : StationState} {cause : LastCause}
  {s : State} {g : Group} (hgroup : groupAt s k = some g)

include h hgroup

/-- A claim that the engine's and the interlock's part of a departure establishes stands at its end. -/
theorem leave_after_group (hg : G g) (hG : lineOf k = .c → ∀ g, G g)
    (hdrop : ∀ u, P u → P (updStation k (dropProfile new) u))
    (hunbind : ∀ u, new = .absent → P u → P (unbindRecord g u))
    (hs : P (departGroup g (leaveAlert (leftLoaded k s) (leaveStart k new cause s)))) : P (leave k new cause s) := by
  rw [leave_eq, hgroup]
  refine leaveReport_settling h hG _ _ _ (leaveUnbind_settling h (fun g' hg' => ?_) (fun g' u hg' hnew hu => ?_) _
    (hdrop _ hs))
  · obtain rfl : g = g' := Option.some.inj hg'
    exact hg
  · obtain rfl : g = g' := Option.some.inj hg'
    exact hunbind u hnew hu

/-- A claim that the unbinding establishes stands at a departure's end. -/
theorem leave_after_unbind (hg : G g) (hG : lineOf k = .c → ∀ g, G g) (hnew : new = .absent)
    (hs : P (unbindRecord g (updStation k (dropProfile new)
      (departGroup g (leaveAlert (leftLoaded k s) (leaveStart k new cause s)))))) : P (leave k new cause s) := by
  rw [leave_eq, hgroup]
  refine leaveReport_settling h hG _ _ _ ?_
  show P (if new = .absent then unbindGroup g _ else _)
  rw [if_pos hnew]
  exact unboundLapse_settling h hg _ hs

end Phases

/-- The operation of a departing station's group has ended (R152). -/
theorem leave_idle {k : Stn} {new : StationState} {cause : LastCause} {s : State} {g : Group}
    (hgroup : groupAt s k = some g) : (leave k new cause s).ops.get g = none := by
  refine leave_after_group (settling_idle g (fun _ => True)) hgroup trivial (fun _ _ => trivial) (fun _ hu => hu)
    (fun u _ hu => ?_) (departGroup_idle _ _)
  rw [unbindRecord, (publishGroup_frame _ _ _).1]
  exact hu

theorem leave_keeps_idle {k : Stn} {new : StationState} {cause : LastCause} {s : State} {g : Group}
    (h : s.ops.get g = none) : (leave k new cause s).ops.get g = none := by
  refine leave_settling (settling_idle g (fun _ => True)) (fun _ _ => trivial) (fun _ _ => trivial) (fun _ hu => hu)
    (fun g' u _ _ hu => ?_) ?_
  · rw [unbindRecord, (publishGroup_frame _ _ _).1]
    exact hu
  · rw [leaveStart_state]
    exact h

/-! ### The permit pins -/

theorem drivePermit_permitPins (g : Group) (s : State) :
    (drivePermit g s).permitPins = s.permitPins.set g (s.groups.get g).permit := by
  unfold drivePermit
  dsimp only
  split
  · rename_i hsame
    rw [← hsame, ByGroup.set_get]
  · exact setLocalOutput_keeps (panel_permitPins _).toImage _ _ _ rfl

theorem publishGroup_permitPins (before : GroupRec) (g : Group) (s : State) :
    (publishGroup before g s).permitPins = s.permitPins.set g (s.groups.get g).permit := by
  unfold publishGroup
  dsimp only
  refine handCopy_keeps (panel_permitPins _) _ _ _ ?_
  split
  · exact drivePermit_permitPins _ _
  · rw [groupNotice, notice_permitPins, drivePermit_permitPins]

/-- An evaluation of a bound group drives the group's pin to the record's permit (R117). -/
theorem evaluateFrom_permitPins (before : GroupRec) (g : Group) (s : State) :
    (evaluateFrom before g s).permitPins =
      if (s.groups.get g).bound then s.permitPins.set g (evalRecord s g).permit else s.permitPins := by
  have hpublished : (publishGroup before g (updGroup g (fun _ => evalRecord s g) s)).permitPins =
      s.permitPins.set g (evalRecord s g).permit := by
    rw [publishGroup_permitPins, updGroup_groups, ByGroup.get_set_self, updGroup_permitPins]
  unfold evaluateFrom
  split
  · dsimp only
    split
    · exact (raiseAlert_keeps (panel_permitPins _) _ _ rfl).trans hpublished
    · exact hpublished
  · rfl

/-- The group of a station that is not scanned, and with `pin` its permit pin low. -/
def CarriedOff (k : Stn) (g : Group) (pin : Bool) (t : State) : Prop :=
  isScanned (stateOf t k) = false ∧ (t.groups.get g).bound = true ∧ (t.groups.get g).station = some k ∧
    (pin = true → t.permitPins.get g = false)

section CarriedOff

variable {k : Stn} {g : Group} {pin : Bool} {s : State}

theorem evalRecord_permit_off (h : CarriedOff k g pin s) : (evalRecord s g).permit = false := by
  obtain ⟨hstate, -, hstation, -⟩ := h
  rw [← Bool.not_eq_true, evalRecord_permit_iff]
  rintro ⟨-, -, ⟨k', hk', honline⟩, -⟩
  obtain rfl : k = k' := Option.some.inj (hstation.symm.trans hk')
  unfold stateOf at hstate
  rcases honline with hon | hon <;> rw [hon] at hstate <;> cases hstate

theorem evaluateFrom_stations (before : GroupRec) (g : Group) (s : State) :
    (evaluateFrom before g s).stations = s.stations := evaluateFrom_keeps (inner_stations _).toLocal _ _ _ rfl

theorem stateOf_congr {s t : State} (h : t.stations = s.stations) (k : Stn) : stateOf t k = stateOf s k := by
  rw [stateOf, stateOf, h]

theorem carriedOff_evaluated (before : GroupRec) (g' : Group) (h : CarriedOff k g pin s) :
    CarriedOff k g pin (evaluateFrom before g' s) := by
  have hoff := evalRecord_permit_off h
  obtain ⟨hstate, hbound, hstation, hpin⟩ := h
  refine ⟨(stateOf_congr (evaluateFrom_stations _ _ _) k).symm ▸ hstate, ?_⟩
  rw [evaluateFrom_groups, evaluateFrom_permitPins]
  split
  · rw [ByGroup.get_set, ByGroup.get_set]
    split
    · rename_i hg
      subst hg
      exact ⟨hbound, hstation, fun _ => hoff⟩
    · exact ⟨hbound, hstation, hpin⟩
  · exact ⟨hbound, hstation, hpin⟩

theorem settling_carriedOff (k : Stn) (g : Group) (pin : Bool) (G : Group → Prop) :
    Settling G (CarriedOff k g pin) := by
  refine Settling.of_panel ⟨⟨fun _ _ _ h => h, fun _ _ _ _ h => h, fun kind payload s h => ?_⟩, fun _ _ h => h⟩
    (fun before g' s _ hs => carriedOff_evaluated before g' hs) (fun _ _ _ h => h) (fun _ _ h => h) (fun _ _ h => h)
    (fun _ _ _ _ h => h) (fun _ _ _ h => h)
  rw [notice_state]
  exact h

/-- An evaluation of the group drives its pin low (R117). -/
theorem evaluate_carriedOff (h : CarriedOff k g false s) : CarriedOff k g true (evaluate g s) := by
  obtain ⟨hstate, hbound, hstation, -⟩ := carriedOff_evaluated (s.groups.get g) g h
  unfold evaluate
  rw [if_pos h.2.1]
  refine handToEngine_settling (settling_carriedOff k g true (fun _ => True)) trivial _
    ⟨hstate, hbound, hstation, fun _ => ?_⟩
  rw [evaluateRecord, evaluateFrom_permitPins, if_pos h.2.1, ByGroup.get_set_self, evalRecord_permit_off h]

theorem departGroup_carriedOff (h : CarriedOff k g false s) : CarriedOff k g true (departGroup g s) := by
  have hoff := settling_carriedOff k g false (fun _ => True)
  have hlow := settling_carriedOff k g true (fun _ => True)
  unfold departGroup
  split
  · split
    · dsimp only
      split
      · exact endOperation_settling hlow trivial _ _ (evaluate_carriedOff h)
      · exact evaluate_carriedOff (endOperation_settling hoff trivial _ _ h)
    · exact evaluate_carriedOff (endOperation_settling hoff trivial _ _ h)
  · exact evaluate_carriedOff h

end CarriedOff

theorem leaveStart_carriedOff {k : Stn} {new : StationState} (hnew : isScanned new = false) (cause : LastCause)
    {s : State} {g : Group} (hgroup : groupAt s k = some g) :
    CarriedOff k g false (leaveAlert (leftLoaded k s) (leaveStart k new cause s)) := by
  obtain ⟨hbound, hstation⟩ := groupAt_some hgroup
  refine leaveAlert_settling (settling_carriedOff k g false (fun _ => True)) _ _ ?_
  rw [leaveStart_state]
  refine ⟨?_, hbound, hstation, nofun⟩
  rw [stateOf, ByStn.get_set_self]
  exact hnew

/-- The permit of a departing station's group is off, still bound (R116, R117). -/
theorem leave_permit_off {k : Stn} {new : StationState} (hnew : isScanned new = false) (habsent : new ≠ .absent)
    {cause : LastCause} {s : State} {g : Group} (hgroup : groupAt s k = some g) :
    (leave k new cause s).permitPins.get g = false := by
  have hend : CarriedOff k g true (leave k new cause s) :=
    leave_after_group (settling_carriedOff k g true (fun _ => True)) hgroup trivial (fun _ _ => trivial)
      (fun u hu => ⟨by rw [stateOf_dropProfile]; exact hu.1, hu.2⟩) (fun _ hnew' _ => absurd hnew' habsent)
      (departGroup_carriedOff (leaveStart_carriedOff hnew cause hgroup))
  exact hend.2.2.2 rfl

/-! ### The unbinding (R104) -/

/-- A group that is unbound, its permit pin low. -/
def UnboundLow (g : Group) (t : State) : Prop := t.groups.get g = GroupRec.unbound ∧ t.permitPins.get g = false

theorem settling_unboundLow (g : Group) (G : Group → Prop) : Settling G (UnboundLow g) := by
  refine Settling.of_panel ⟨⟨fun _ _ _ h => h, fun _ _ _ _ h => h, fun kind payload s h => ?_⟩, fun _ _ h => h⟩
    (fun before g' s _ hs => ?_) (fun _ _ _ h => h) (fun _ _ h => h) (fun _ _ h => h) (fun _ _ _ _ h => h)
    (fun _ _ _ h => h)
  · rw [notice_state]
    exact h
  · obtain ⟨hgroup, hpin⟩ := hs
    unfold UnboundLow
    rw [evaluateFrom_groups, evaluateFrom_permitPins]
    split
    · rename_i hbound
      have hne : g ≠ g' := by
        rintro rfl
        rw [hgroup] at hbound
        cases hbound
      rw [ByGroup.get_set_ne _ _ hne, ByGroup.get_set_ne _ _ hne]
      exact ⟨hgroup, hpin⟩
    · exact ⟨hgroup, hpin⟩

theorem unbindRecord_groups (g : Group) (s : State) : (unbindRecord g s).groups = s.groups.set g GroupRec.unbound := by
  rw [unbindRecord, (publishGroup_frame _ _ _).2.2]
  rfl

theorem unbindRecord_permitPins (g : Group) (s : State) : (unbindRecord g s).permitPins = s.permitPins.set g false := by
  rw [unbindRecord, publishGroup_permitPins, updGroup_groups, ByGroup.get_set_self, updGroup_permitPins]
  rfl

theorem unbindRecord_unbinds (g : Group) (s : State) : UnboundLow g (unbindRecord g s) := by
  unfold UnboundLow
  rw [unbindRecord_groups, unbindRecord_permitPins, ByGroup.get_set_self, ByGroup.get_set_self]
  exact ⟨rfl, rfl⟩

theorem leave_unbinds {k : Stn} {cause : LastCause} {s : State} {g : Group} (hgroup : groupAt s k = some g) :
    UnboundLow g (leave k .absent cause s) :=
  leave_after_unbind (settling_unboundLow g (fun _ => True)) hgroup trivial (fun _ _ => trivial) rfl
    (unbindRecord_unbinds _ _)

theorem leave_keeps_unboundLow {k : Stn} {new : StationState} {cause : LastCause} {s : State} {g : Group}
    (h : UnboundLow g s) : UnboundLow g (leave k new cause s) := by
  refine leave_settling (settling_unboundLow g (fun _ => True)) (fun _ _ => trivial) (fun _ _ => trivial)
    (fun _ hu => hu) (fun g' u _ _ hu => ?_) ?_
  · by_cases hg : g = g'
    · subst hg
      exact unbindRecord_unbinds _ _
    · unfold UnboundLow
      rw [unbindRecord_groups, unbindRecord_permitPins, ByGroup.get_set_ne _ _ hg, ByGroup.get_set_ne _ _ hg]
      exact hu
  · rw [leaveStart_state]
    exact h

/-! ### The owner (R135) -/

theorem evaluate_owners (g : Group) (s : State) : (evaluate g s).owners = s.owners :=
  evaluate_keeps (local_owners _) g s rfl

theorem departGroup_owners (g : Group) (s : State) : (departGroup g s).owners = s.owners := by
  unfold departGroup
  split
  · split
    · dsimp only
      split
      · rw [endOperation_owners, evaluate_owners]
      · rw [evaluate_owners, endOperation_owners]
    · rw [evaluate_owners, endOperation_owners]
  · exact evaluate_owners _ _

theorem leaveAlert_owners (loaded : Bool) (s : State) : (leaveAlert loaded s).owners = s.owners := by
  unfold leaveAlert
  split
  · exact (raiseAlert_frame _ _).2.2.1
  · rfl

/-- An owner record after an unbinding (R135). -/
def unboundOwner (r : OwnerRec) : OwnerRec :=
  ⟨.none, if r.owner = .none then r.generation else r.generation + 1, ⟨none, none⟩⟩

theorem unboundLapse_owners (g : Group) (s : State) :
    (unboundLapse g s).owners = s.owners.set g (unboundOwner (s.owners.get g)) := by
  unfold unboundLapse unboundOwner
  by_cases howner : (s.owners.get g).owner = .none
  · rw [if_pos howner, clearMarks_owners, if_pos howner, ← howner]
  · rw [if_neg howner, ownerChange_owners, if_neg howner]

theorem unbindGroup_owners (g : Group) (s : State) :
    (unbindGroup g s).owners = s.owners.set g (unboundOwner (s.owners.get g)) := by
  have hrecord : (unbindRecord g s).owners = s.owners := unbindRecord_keeps (local_owners _) g s rfl
  rw [unbindGroup, unboundLapse_owners, hrecord]

/-- The loss of the cab station passes over a record that has just lapsed. -/
theorem lostSource_unboundOwner (src : Source) (r : OwnerRec) : lostSource src (unboundOwner r) = unboundOwner r := by
  cases src <;> rfl

theorem leaveReport_owners (k : Stn) (new : StationState) (online : Bool) {s : State} {g : Group} {r : OwnerRec}
    (h : s.owners.get g = unboundOwner r) : (leaveReport k new online s).owners.get g = unboundOwner r := by
  unfold leaveReport
  split
  · split
    · unfold stationFault
      dsimp only
      split
      · rw [(raiseAlert_frame _ _).2.2.1, h]
      · exact h
    · exact h
  · have hlost : ∀ u : State, u.owners.get g = unboundOwner r →
        (reportCabStation new u).owners.get g = unboundOwner r := fun u hu => by
      rw [reportCabStation_panel (panel_owners u.owners) new u rfl, hu]
    refine hlost _ ?_
    split
    · rw [cabLost, (loseSource_both .cab .cabLost s g).1, h, lostSource_unboundOwner]
    · exact h

theorem leave_lapses {k : Stn} {cause : LastCause} {s : State} {g : Group} (hgroup : groupAt s k = some g) :
    (leave k .absent cause s).owners.get g = unboundOwner (s.owners.get g) := by
  rw [leave_eq, hgroup]
  refine leaveReport_owners _ _ _ ?_
  show (unbindGroup g _).owners.get g = _
  rw [unbindGroup_owners, ByGroup.get_set_self, updStation_owners]
  show unboundOwner ((departGroup g _).owners.get g) = _
  rw [departGroup_owners, leaveAlert_owners, leaveStart_state]

/-! ### The departure whole -/

theorem leave_departs {k : Stn} {new : StationState} (hnew : isScanned new = false) (cause : LastCause) (s : State) :
    Departed k (decide (new = .absent)) s (leave k new cause s) := by
  obtain ⟨-, hlist, hflight, hintended⟩ := leave_writerIdle (k := k) hnew cause s
  refine ⟨?_, fun x hx hstn hkind => ?_, hlist, hflight, fun habsent => ⟨hintended habsent, ?_, ?_⟩, ?_,
    fun x hx => leave_linkLost hx, fun p i hp hlow hhigh hwhole => leave_window new cause hp hlow hhigh hwhole,
    fun g hg => ⟨leave_idle hg, ?_, fun habsent => ?_⟩⟩
  · rw [leave_lines, ByLine.get_set_self]
    simp [departEngine]
  · rw [leave_lines, ByLine.get_set_self] at hx
    obtain ⟨y, -, hy⟩ := Option.map_eq_some_iff.1 hx
    by_cases htest : (y.stn == k && y.kind != .probe) = true
    · rw [if_pos htest] at hy
      rw [← hy]
    · rw [if_neg htest] at hy
      subst hy
      simp [hstn, hkind] at htest
  · rw [leave_staleLimits, if_pos (by simpa using habsent), ByStn.get_set_self]
  · rw [leave_raw, if_pos (by simpa using habsent), ByStn.get_set_self]
  · rw [leave_stations, ByStn.get_set_self]
    rfl
  · by_cases habsent : new = .absent
    · subst habsent
      exact (leave_unbinds hg).2
    · exact leave_permit_off hnew habsent hg
  · obtain rfl : new = .absent := by simpa using habsent
    exact ⟨(leave_unbinds hg).1, leave_lapses hg⟩

end Sys2Proof.Proofs
end

section
/-! Departures to ABSENT: the end of a HOLDOFF and STATION_RESTART (R32, R38), the fall of PLUG (R36, R37), and the
teardown of a mode change (R42, R200). -/

namespace Sys2Proof.Proofs

open Sys2Proof Sys2Proof.Machine Sys2Proof.Safety Sys2Proof.Laws

/-! ### The record of a departure to ABSENT -/

/-- The record that goes to ABSENT (R32, R34, R35). -/
def absentRecord (cause : LastCause) (r : StationRec) : StationRec :=
  { r with
    state := .absent, lastCause := cause, refusal := none, holdoffExpiry := none, misses := 0, limitNoted := false
    transfer := none, profile := none }

theorem leftRecord_absent (k : Stn) (cause : LastCause) (s : State) :
    leftRecord k .absent cause s = absentRecord cause (s.stations.get k) := rfl

theorem leave_absent_stations (k : Stn) (cause : LastCause) (s : State) :
    (leave k .absent cause s).stations = s.stations.set k (absentRecord cause (s.stations.get k)) := by
  rw [leave_stations, leftRecord_absent]

/-! ### Two states that a departure cannot tell apart -/

/-- `u` holds of station `k` what `s` holds: its record, its profile, its group and the group's owner. -/
structure SameStation (k : Stn) (s u : State) : Prop where
  transfer : (u.stations.get k).transfer = (s.stations.get k).transfer
  profile : profileOf u k = profileOf s k
  length : u.points.length = s.points.length
  group : groupAt u k = groupAt s k
  owner : ∀ g, groupAt s k = some g → u.owners.get g = s.owners.get g

theorem SameStation.departed {k : Stn} {unmapped : Bool} {s u t : State} (h : SameStation k s u)
    (hd : Departed k unmapped u t) : Departed k unmapped s t := by
  obtain ⟨hnext, hslot, hlist, hflight, hstores, htransfer, hlost, hwindow, hgroup⟩ := hd
  refine ⟨hnext, hslot, hlist, hflight, hstores, htransfer, fun x hx => hlost x (h.transfer.trans hx),
    fun p i hp hlow hhigh hwhole => hwindow p i (h.profile.trans hp) hlow hhigh (by rwa [h.length]), fun g hg => ?_⟩
  obtain ⟨hidle, hpin, hunbound⟩ := hgroup g (h.group.trans hg)
  refine ⟨hidle, hpin, fun hun => ?_⟩
  rw [← h.owner g hg]
  exact hunbound hun

/-- A message at the end of the queue undoes nothing of a departure. -/
theorem departed_of_port {k : Stn} {unmapped : Bool} {s t : State} (q : HostPort)
    (hq : ∀ m ∈ t.port.fifo, m ∈ q.fifo) (hd : Departed k unmapped s t) :
    Departed k unmapped s { t with port := q } := by
  obtain ⟨hnext, hslot, hlist, hflight, hstores, htransfer, hlost, hwindow, hgroup⟩ := hd
  exact ⟨hnext, hslot, hlist, hflight, hstores, htransfer, fun x hx => hq _ (hlost x hx), hwindow, hgroup⟩

/-! ### HOLDOFF and STATION_RESTART (R32, R38) -/

/-- A change of a record that leaves its profile and its transfer is not seen by a departure. -/
theorem sameStation_updStation {k : Stn} {f : StationRec → StationRec} {s : State}
    (hf : (f (s.stations.get k)).transfer = (s.stations.get k).transfer ∧
      (f (s.stations.get k)).profile = (s.stations.get k).profile) : SameStation k s (updStation k f s) where
  transfer := by rw [updStation, ByStn.get_set_self, hf.1]
  profile := by
    rw [profileOf, profileOf, updStation, ByStn.get_set_self, hf.2]
    rfl
  length := rfl
  group := rfl
  owner _ _ := rfl

theorem holdoffEnds_eq {s : State} {k : Stn} {d : Nat} (hstate : (s.stations.get k).state = .holdoff)
    (hexpiry : (s.stations.get k).holdoffExpiry = some d) :
    holdoffEnds k s = leave k .absent .holdoffEnd
      (updStation k (fun r => { r with recovery := satSucc 255 r.recovery }) (reachTime d s)) := by
  have hstate' : stateOf s k = .holdoff := hstate
  unfold holdoffEnds
  rw [hstate', hexpiry]

theorem stationRestart_eq (tag : Byte) (k : Stn) (s : State) :
    stationRestart tag [lineCode (lineOf k), byteOf (addressOf k)] s = settleChange (replyBytes 33 tag .ok []
      (leaveUnlessAbsent .restart (updStation k (fun r => { r with recovery := 0 }) s) k)) := by
  rw [stationRestart, stationPayload_code]

/-- What a departure to ABSENT leaves of the records. -/
theorem leave_absent_record (k : Stn) (cause : LastCause) (s : State) :
    (leave k .absent cause s).stations.get k = absentRecord cause (s.stations.get k) ∧
      ∀ k', k' ≠ k → (leave k .absent cause s).stations.get k' = s.stations.get k' := by
  rw [leave_absent_stations, ByStn.get_set_self]
  exact ⟨rfl, fun k' hk' => ByStn.get_set_ne _ _ hk'⟩

theorem holdoffEnds_departs {s : State} {k : Stn} {d : Nat} (hstate : (s.stations.get k).state = .holdoff)
    (hexpiry : (s.stations.get k).holdoffExpiry = some d) :
    ∃ t, holdoffEnds k s = t ∧
      t.stations.get k = absentRecord .holdoffEnd
        { s.stations.get k with recovery := min 255 ((s.stations.get k).recovery + 1) } ∧
      (∀ k', k' ≠ k → t.stations.get k' = s.stations.get k') ∧ Departed k true s t := by
  set u := updStation k (fun r => { r with recovery := satSucc 255 r.recovery }) (reachTime d s) with hu
  obtain ⟨hrecord, hothers⟩ := leave_absent_record k .holdoffEnd u
  refine ⟨_, holdoffEnds_eq hstate hexpiry, ?_, fun k' hk' => ?_, ?_⟩
  · rw [hrecord, hu, updStation, ByStn.get_set_self]
    rfl
  · rw [hothers k' hk', hu, updStation, ByStn.get_set_ne _ _ hk']
    rfl
  · have hsame : SameStation k (reachTime d s) u := sameStation_updStation ⟨rfl, rfl⟩
    exact SameStation.departed (u := reachTime d s) ⟨rfl, rfl, rfl, rfl, fun _ _ => rfl⟩
      (hsame.departed (leave_departs rfl .holdoffEnd u))

theorem stationRestart_departs {s : State} (tag : Byte) (k : Stn) (hchange : s.hub.change = none)
    (hstate : (s.stations.get k).state ≠ .absent) :
    ∃ t, stationRestart tag [lineCode (lineOf k), byteOf (addressOf k)] s = t ∧
      t.stations.get k = absentRecord .restart { s.stations.get k with recovery := 0 } ∧
      (∀ k', k' ≠ k → t.stations.get k' = s.stations.get k') ∧ Departed k true s t ∧
      t.port.fifo.getLast? = some ⟨.countedReply, 33, tag, [0], false, false⟩ := by
  set u := updStation k (fun r => { r with recovery := 0 }) s with hu
  obtain ⟨hrecord, hothers⟩ := leave_absent_record k .restart u
  have hstate' : stateOf u k ≠ .absent := by
    rw [hu, stateOf, updStation, ByStn.get_set_self]
    exact hstate
  have hsteady : (replyBytes 33 tag .ok [] (leave k .absent .restart u)).hub.change = none := by
    rw [replyBytes_hub, leave_hub]
    exact hchange
  have heq : stationRestart tag [lineCode (lineOf k), byteOf (addressOf k)] s =
      replyBytes 33 tag .ok [] (leave k .absent .restart u) := by
    rw [stationRestart_eq, leaveUnlessAbsent, if_neg hstate', settleChange_of_steady hsteady]
  refine ⟨_, heq, ?_, fun k' hk' => ?_, ?_, getLast?_replyBytes _ _ _ _ _⟩
  · rw [replyBytes_stations, hrecord, hu, updStation, ByStn.get_set_self]
  · rw [replyBytes_stations, hothers k' hk', hu, updStation, ByStn.get_set_ne _ _ hk']
  · have hsame : SameStation k s u := sameStation_updStation ⟨rfl, rfl⟩
    exact departed_of_port _ (fun m hm => List.mem_append_left _ hm)
      (hsame.departed (leave_departs rfl .restart u))

theorem stationRestart_absent {s : State} (tag : Byte) (k : Stn) (hchange : s.hub.change = none)
    (hstate : (s.stations.get k).state = .absent) :
    stationRestart tag [lineCode (lineOf k), byteOf (addressOf k)] s = replyBytes 33 tag .ok []
      { s with stations := s.stations.set k { s.stations.get k with recovery := 0 } } := by
  have hstate' : stateOf (updStation k (fun r => { r with recovery := 0 }) s) k = .absent := by
    rw [stateOf, updStation, ByStn.get_set_self]
    exact hstate
  rw [stationRestart_eq, leaveUnlessAbsent, if_pos hstate', settleChange_of_steady (by
    rw [replyBytes_hub]
    exact hchange)]
  rfl

/-- Settles O45. -/
theorem holdoffAndRestartToAbsent : Obligations.HoldoffAndRestartToAbsent := by
  refine ⟨fun s k d hheld hstate hexpiry => ?_, fun s tag k h hchange => ⟨fun hstate => ?_, fun hstate => ?_⟩⟩
  · obtain ⟨t, ht, hrecord, hothers, hdeparted⟩ := holdoffEnds_departs hstate hexpiry
    refine ⟨t, congrArg Host.Outcome.next ((unlessHeld_of_high hheld).trans ht), ?_⟩
    rw [hrecord]
    exact ⟨rfl, rfl, rfl, rfl, rfl, rfl, hothers, hdeparted⟩
  · obtain ⟨t, ht, hrecord, hothers, hdeparted, hlast⟩ :=
      stationRestart_departs (s := acceptRequest 33 tag s) tag k hchange hstate
    refine ⟨t, next_handle h ht, ?_⟩
    rw [hrecord]
    exact ⟨rfl, rfl, rfl, rfl, rfl, rfl, hothers,
      SameStation.departed (u := acceptRequest 33 tag s) ⟨rfl, rfl, rfl, rfl, fun _ _ => rfl⟩ hdeparted, hlast⟩
  · exact next_handle h (stationRestart_absent tag k hchange hstate)

end Sys2Proof.Proofs
end

section
/-! Departures of several stations one after the other: the fall of PLUG (R36, R37), and the teardown of a mode change
(R42, R200). -/

namespace Sys2Proof.Proofs

open Sys2Proof Sys2Proof.Machine Sys2Proof.Safety Sys2Proof.Laws

/-! ### What a departure leaves of another station -/

/-- A group's binding. -/
def BoundTo (g : Group) (bound : Bool) (station : Option Stn) (t : State) : Prop :=
  (t.groups.get g).bound = bound ∧ (t.groups.get g).station = station

theorem settling_boundTo (g : Group) (bound : Bool) (station : Option Stn) (G : Group → Prop) :
    Settling G (BoundTo g bound station) := by
  refine Settling.of_panel ⟨⟨fun _ _ _ h => h, fun _ _ _ _ h => h, fun kind payload s h => ?_⟩, fun _ _ h => h⟩
    (fun before g' s _ hs => ?_) (fun _ _ _ h => h) (fun _ _ h => h) (fun _ _ h => h) (fun _ _ _ _ h => h)
    (fun _ _ _ h => h)
  · rw [notice_state]
    exact h
  · unfold BoundTo at hs ⊢
    rw [evaluateFrom_groups]
    split
    · rw [ByGroup.get_set]
      split
      · rename_i hg
        subst hg
        exact hs
      · exact hs
    · exact hs

/-- The binding of a group that the departing station does not carry. -/
theorem leave_keeps_binding {i : Stn} {new : StationState} {cause : LastCause} {s : State} {g : Group}
    (hg : groupAt s i ≠ some g) : BoundTo g (s.groups.get g).bound (s.groups.get g).station (leave i new cause s) := by
  refine leave_settling (settling_boundTo g _ _ (fun _ => True)) (fun _ _ => trivial) (fun _ _ => trivial)
    (fun _ hu => hu) (fun g' u hg' _ hu => ?_) ?_
  · have hne : g ≠ g' := fun he => hg (he ▸ hg')
    unfold BoundTo
    rw [unbindRecord_groups, ByGroup.get_set_ne _ _ hne]
    exact hu
  · rw [leaveStart_state]
    exact ⟨rfl, rfl⟩

/-- The owner record of such a group, where the departing station is on the S-line. -/
theorem settling_owner (g : Group) (r : OwnerRec) : Settling (· ≠ g) (fun t => t.owners.get g = r) := by
  refine Settling.of_panel ⟨⟨fun _ _ _ h => h, fun _ _ _ _ h => h, fun _ _ _ h => by rwa [notice_owners]⟩,
    fun _ _ h => h⟩ (fun before g' s _ hs => ?_) (fun _ _ _ h => h) (fun _ _ h => h) (fun _ _ h => h)
    (fun g' src s hg' h => ?_) (fun g' s hg' h => ?_)
  · rw [evaluateFrom_keeps (local_owners s.owners) _ _ _ rfl]
    exact hs
  · rw [updOwner, ByGroup.get_set_ne _ _ hg'.symm]
    exact h
  · rw [updOwner, ByGroup.get_set_ne _ _ hg'.symm]
    exact h

theorem leave_keeps_owner {i : Stn} (hline : lineOf i = .s) {new : StationState} {cause : LastCause} {s : State}
    {g : Group} (hg : groupAt s i ≠ some g) : (leave i new cause s).owners.get g = s.owners.get g := by
  refine leave_settling (settling_owner g _) (fun g' hg' he => hg (he ▸ hg')) (fun hc => ?_) (fun _ hu => hu)
    (fun g' u _ _ hu => ?_) ?_
  · rw [hline] at hc
    cases hc
  · rw [unbindRecord_keeps (local_owners u.owners) g' u rfl]
    exact hu
  · rw [leaveStart_state]

/-- The test by which a station's group is found. -/
def carries (s : State) (k : Stn) (g : Group) : Bool := (s.groups.get g).bound && (s.groups.get g).station == some k

theorem groupAt_congr {s t : State} {k : Stn} (h : ∀ g, carries t k g = carries s k g) :
    groupAt t k = groupAt s k := by
  have hfun : carries t k = carries s k := funext h
  show groupsList.find? (carries t k) = groupsList.find? (carries s k)
  rw [hfun]

/-- A station's group is the same when another station has gone to ABSENT. -/
theorem leave_groupAt {i k : Stn} (hi : i ≠ k) (cause : LastCause) (s : State) :
    groupAt (leave i .absent cause s) k = groupAt s k := by
  refine groupAt_congr fun g => ?_
  by_cases hg : groupAt s i = some g
  · have hstation := (groupAt_some hg).2
    have hunbound := (leave_unbinds (cause := cause) hg).1
    unfold carries
    rw [hunbound, hstation]
    have hne : (some i == some k) = false := by simpa using hi
    rw [hne, Bool.and_false]
    rfl
  · obtain ⟨hbound, hstation⟩ := leave_keeps_binding (new := .absent) (cause := cause) hg
    unfold carries
    rw [hbound, hstation]

/-- A departure of one S-line station is not seen by another. -/
theorem leave_sameStation {i k : Stn} (hi : i ≠ k) (hline : lineOf i = .s) (cause : LastCause) (s : State) :
    SameStation k s (leave i .absent cause s) where
  transfer := by rw [(leave_absent_record i cause s).2 k hi.symm]
  profile := by
    have hstation := (leave_absent_record i cause s).2 k hi.symm
    have hprofiles := leave_profiles i .absent cause s
    simp only [profileOf, hstation]
    congr 1
    funext r
    cases r <;> simp [resolveProfile, tableProfile, hprofiles]
  length := leave_points_length _ _ _ _
  group := leave_groupAt hi cause s
  owner g hg := by
    refine leave_keeps_owner hline fun hgi => hi ?_
    exact Option.some.inj ((groupAt_some hgi).2.symm.trans (groupAt_some hg).2)

theorem SameStation.refl (k : Stn) (s : State) : SameStation k s s := ⟨rfl, rfl, rfl, rfl, fun _ _ => rfl⟩

theorem SameStation.trans {k : Stn} {s t u : State} (h : SameStation k s t) (h' : SameStation k t u) :
    SameStation k s u where
  transfer := h'.transfer.trans h.transfer
  profile := h'.profile.trans h.profile
  length := h'.length.trans h.length
  group := h'.group.trans h.group
  owner g hg := (h'.owner g (h.group.trans hg)).trans (h.owner g hg)

/-- A station that has departed stays so when another one departs. -/
theorem leave_keeps_departed {i k : Stn} (hi : i ≠ k) (hline : lineOf i = .s) (cause : LastCause) {s t : State}
    (hstate : isScanned (stateOf t k) = false) (hd : Departed k true s t) :
    Departed k true s (leave i .absent cause t) := by
  obtain ⟨hnext, hslot, hlist, hflight, hstores, htransfer, hlost, hwindow, hgroup⟩ := hd
  obtain ⟨hintended, hstale, hraw⟩ := hstores rfl
  obtain ⟨-, hlist', hflight', hintended'⟩ :=
    leave_keeps_writerIdle hi (new := .absent) cause (unmapped := true) ⟨hstate, hlist, hflight, fun _ => hintended⟩
  refine ⟨?_, fun x hx hstn hkind => ?_, hlist', hflight', fun h => ⟨hintended' h, ?_, ?_⟩, ?_,
    fun x hx => leave_keeps (link_message _) i .absent cause t (hlost x hx),
    fun p j hp hlow hhigh hwhole => leave_keeps_unmapped cause (hwindow p j hp hlow hhigh hwhole), fun g hg => ?_⟩
  · rw [leave_lines, ByLine.get_set]
    split
    · rename_i hline'
      rw [← hline']
      simp [departEngine, hnext]
    · exact hnext
  · rw [leave_lines, ByLine.get_set] at hx
    split at hx
    · rename_i hline'
      rw [← hline'] at hx
      obtain ⟨y, hy, hxy⟩ := Option.map_eq_some_iff.1 hx
      by_cases htest : (y.stn == i && y.kind != .probe) = true
      · rw [if_pos htest] at hxy
        rw [← hxy]
      · rw [if_neg htest] at hxy
        subst hxy
        exact hslot y hy hstn hkind
    · exact hslot x hx hstn hkind
  · rw [leave_staleLimits, if_pos rfl, ByStn.get_set_ne _ _ hi.symm, hstale]
  · rw [leave_raw, if_pos rfl, ByStn.get_set_ne _ _ hi.symm, hraw]
  · rw [(leave_absent_record i cause t).2 k hi.symm, htransfer]
  · obtain ⟨hidle, hpin, hunbound⟩ := hgroup g hg
    obtain ⟨hgone, howner⟩ := hunbound rfl
    obtain ⟨hgone', hpin'⟩ := leave_keeps_unboundLow (k := i) (new := .absent) (cause := cause) (g := g) ⟨hgone, hpin⟩
    refine ⟨leave_keeps_idle hidle, hpin', fun _ => ⟨hgone', ?_⟩⟩
    rw [leave_keeps_owner hline, howner]
    intro hgi
    have hbound := (groupAt_some hgi).1
    rw [hgone] at hbound
    cases hbound

/-! ### Several departures -/

section Several

variable (cause : LastCause)

theorem leaveUnlessAbsent_other {i k : Stn} (hi : i ≠ k) (hline : lineOf i = .s) (s : State) :
    SameStation k s (leaveUnlessAbsent cause s i) ∧
      (leaveUnlessAbsent cause s i).stations.get k = s.stations.get k := by
  unfold leaveUnlessAbsent
  split
  · exact ⟨SameStation.refl _ _, rfl⟩
  · exact ⟨leave_sameStation hi hline cause s, (leave_absent_record i cause s).2 k hi.symm⟩

/-- The departures of other stations are not seen by a station. -/
theorem departures_others {k : Stn} (ks : List Stn) (hk : k ∉ ks) (hline : ∀ i ∈ ks, lineOf i = .s) (s : State) :
    SameStation k s (ks.foldl (leaveUnlessAbsent cause) s) ∧
      (ks.foldl (leaveUnlessAbsent cause) s).stations.get k = s.stations.get k := by
  refine foldl_keeps_mem (P := fun u => SameStation k s u ∧ u.stations.get k = s.stations.get k)
    (fun u i hi hu => ?_) s ⟨SameStation.refl _ _, rfl⟩
  have hne : i ≠ k := fun he => hk (he ▸ hi)
  obtain ⟨hsame, hstation⟩ := leaveUnlessAbsent_other cause hne (hline i hi) u
  exact ⟨hu.1.trans hsame, hstation.trans hu.2⟩

/-- A departed station stays so through the departures of others. -/
theorem departures_keep_departed {k : Stn} (ks : List Stn) (hk : k ∉ ks) (hline : ∀ i ∈ ks, lineOf i = .s)
    {s t : State} (hstate : isScanned (stateOf t k) = false) (hd : Departed k true s t) :
    Departed k true s (ks.foldl (leaveUnlessAbsent cause) t) := by
  refine (foldl_keeps_mem (P := fun u => isScanned (stateOf u k) = false ∧ Departed k true s u)
    (fun u i hi hu => ?_) t ⟨hstate, hd⟩).2
  have hne : i ≠ k := fun he => hk (he ▸ hi)
  have hstation := (leaveUnlessAbsent_other cause hne (hline i hi) u).2
  refine ⟨?_, ?_⟩
  · rw [stateOf, hstation]
    exact hu.1
  · unfold leaveUnlessAbsent
    split
    · exact hu.2
    · exact leave_keeps_departed hne (hline i hi) cause hu.1 hu.2

/-- Every S-line station of a list departs, each as it would alone. -/
theorem departures_each (ks : List Stn) (hks : ks.Nodup) (hline : ∀ i ∈ ks, lineOf i = .s) (s : State) {k : Stn}
    (hk : k ∈ ks) (hstate : (s.stations.get k).state ≠ .absent) :
    (ks.foldl (leaveUnlessAbsent cause) s).stations.get k = absentRecord cause (s.stations.get k) ∧
      Departed k true s (ks.foldl (leaveUnlessAbsent cause) s) := by
  obtain ⟨before, after, rfl⟩ := List.append_of_mem hk
  rw [List.nodup_append, List.nodup_cons] at hks
  obtain ⟨-, ⟨hafter, -⟩, hdisjoint⟩ := hks
  have hbefore : k ∉ before := fun hmem => hdisjoint k hmem k (List.mem_cons_self ..) rfl
  rw [List.foldl_append, List.foldl_cons]
  set u := before.foldl (leaveUnlessAbsent cause) s with hu
  obtain ⟨hsame, hstation⟩ := departures_others cause before hbefore
    (fun i hi => hline i (List.mem_append_left _ hi)) s
  rw [← hu] at hsame hstation
  have hleave : leaveUnlessAbsent cause u k = leave k .absent cause u := by
    rw [leaveUnlessAbsent, if_neg]
    rw [stateOf, hstation]
    exact hstate
  have hline' : ∀ i ∈ after, lineOf i = .s := fun i hi => hline i (by simp [hi])
  obtain ⟨hrecord, -⟩ := leave_absent_record k cause u
  rw [hleave]
  refine ⟨?_, departures_keep_departed cause after hafter hline' ?_ (hsame.departed (leave_departs rfl cause u))⟩
  · rw [(departures_others cause after hafter hline' _).2, hrecord, hstation]
  · rw [stateOf, hrecord]
    rfl

/-- A station of the list is ABSENT in the end. -/
theorem departures_absent (ks : List Stn) (hks : ks.Nodup) (hline : ∀ i ∈ ks, lineOf i = .s) (s : State) {k : Stn}
    (hk : k ∈ ks) : ((ks.foldl (leaveUnlessAbsent cause) s).stations.get k).state = .absent := by
  by_cases hstate : (s.stations.get k).state = .absent
  · refine foldl_keeps (P := fun u => (u.stations.get k).state = .absent) _ (fun u i hu => ?_) ks s hstate
    unfold leaveUnlessAbsent
    split
    · exact hu
    · rw [leave_absent_stations, ByStn.get_set]
      split
      · rfl
      · exact hu
  · rw [(departures_each cause ks hks hline s hk hstate).1]
    rfl

end Several

/-! ### PLUG (R36, R37) -/

theorem plugFall_lines_suspended (s : State) : (plugFall s).lines.s.suspended = true := by
  refine foldl_keeps (P := fun u => u.lines.s.suspended = true) _ (fun u i hu => ?_) (lineStations .s) _ rfl
  unfold leaveUnlessAbsent
  split
  · exact hu
  · rw [leave_lines]
    cases hline : lineOf i with
    | s => exact hu
    | c => exact hu

theorem plugFall_store (s : State) : (plugFall s).store = s.store := by
  refine foldl_keeps (P := fun u => u.store = s.store) _ (fun u i hu => ?_) (lineStations .s) _ rfl
  unfold leaveUnlessAbsent
  split
  · exact hu
  · rw [leave_store, hu]

theorem plugFall_hub (s : State) : (plugFall s).hub = s.hub := by
  refine foldl_keeps (P := fun u => u.hub = s.hub) _ (fun u i hu => ?_) (lineStations .s) _ rfl
  unfold leaveUnlessAbsent
  split
  · exact hu
  · rw [leave_hub, hu]

theorem plugFall_cab (s : State) : (plugFall s).stations.c1 = s.stations.c1 :=
  (departures_others .unplugged (k := .c1) (lineStations .s) (by decide) (by decide) (suspend true s)).2

/-- Every S-line station departs at a fall of PLUG (R36). -/
theorem plugFall_departs (s : State) {k : Stn} (hk : k ∈ lineStations .s) :
    ((plugFall s).stations.get k).state = .absent ∧ ((s.stations.get k).state ≠ .absent →
      (plugFall s).stations.get k = absentRecord .unplugged (s.stations.get k) ∧ Departed k true s (plugFall s)) := by
  have hnodup : (lineStations .s).Nodup := by decide
  have hline : ∀ i ∈ lineStations .s, lineOf i = .s := by decide
  refine ⟨departures_absent _ _ hnodup hline _ hk, fun hstate => ?_⟩
  obtain ⟨hrecord, hdeparted⟩ := departures_each .unplugged (lineStations .s) hnodup hline (suspend true s) hk hstate
  exact ⟨hrecord, SameStation.departed (u := suspend true s) ⟨rfl, rfl, rfl, rfl, fun _ _ => rfl⟩ hdeparted⟩

/-- The state in which the request's value of plug_used is in the working settings. -/
def plugUsedSet (v : Bool) (s : State) : State :=
  restartSilence { s with store := { s.store with working := { s.store.working with plugUsed := v } } }

theorem applySettings_plugUsed (v : Bool) (s : State) :
    applySettings [(18, v.toNat)] s = applyPlugUsed [(18, v.toNat)] (plugUsedSet v s) := by
  cases v <;> rfl

/-- A request of plug_used alone is accepted and applied at once. -/
theorem settingsSet_plugUsed (tag : Byte) (v : Bool) {s t : State} (hchange : s.hub.change = none)
    (ht : applyPlugUsed [(18, v.toNat)] (plugUsedSet v s) = t) (hhub : t.hub = s.hub) :
    settingsSet tag [1, 18, 0, bit v] s = replyBytes 5 tag .ok (1 :: itemBytes (18, v.toNat)) t := by
  have hform : wellFormedItems [1, 18, 0, bit v] = some [(18, v.toNat)] := by cases v <;> rfl
  have hknown : [(18, v.toNat)].all knownValue = true := by cases v <;> rfl
  have hfit : ∀ l, lineFits l ([(18, v.toNat)].map clampItem) s = true := fun l => by cases l <;> cases v <;> rfl
  rw [settingsSet_applied hform hknown (hfit .s) (hfit .c)]
  have happlied : applySettings ([(18, v.toNat)].map clampItem) s = t := by
    rw [← ht, ← applySettings_plugUsed]
    cases v <;> rfl
  rw [happlied, settleChange_of_steady]
  · cases v <;> rfl
  · rw [replyBytes_hub, hhub, hchange]

section PlugUsed

variable (tag : Byte) {s : State} (hchange : s.hub.change = none)

include hchange

/-- plug_used 0 ends the suspension (R37). -/
theorem plugUsed_ends : ∃ t, settingsSet tag [1, 18, 0, 0] s = t ∧ t.store.working.plugUsed = false ∧
    t.lines.s.suspended = false ∧ t.stations = s.stations :=
  ⟨_, settingsSet_plugUsed tag false hchange (t := plugRise (plugUsedSet false s)) rfl rfl, rfl, rfl, rfl⟩

/-- plug_used 1 with PLUG high changes nothing on the line (R37). -/
theorem plugUsed_plugged (hplugged : (pointAt s 0).value ≠ 0) :
    ∃ t, settingsSet tag [1, 18, 0, 1] s = t ∧ t.store.working.plugUsed = true ∧ t.lines = s.lines ∧
      t.stations = s.stations :=
  ⟨_, settingsSet_plugUsed tag true hchange (t := plugUsedSet true s) (if_neg hplugged) rfl, rfl, rfl, rfl⟩

/-- plug_used 1 with PLUG low acts as its fall (R36, R37). -/
theorem plugUsed_falls (hpulled : (pointAt s 0).value = 0) :
    ∃ t, settingsSet tag [1, 18, 0, 1] s = t ∧ t.store.working.plugUsed = true ∧ t.lines.s.suspended = true ∧
      t.stations.c1 = s.stations.c1 ∧ ∀ k ∈ lineStations .s, (t.stations.get k).state = .absent ∧
        ((s.stations.get k).state ≠ .absent →
          t.stations.get k = absentRecord .unplugged (s.stations.get k) ∧ Departed k true s t) := by
  refine ⟨_, settingsSet_plugUsed tag true hchange (t := plugFall (plugUsedSet true s)) (if_pos hpulled)
    (plugFall_hub _), ?_, ?_, ?_, fun k hk => ?_⟩
  · rw [replyBytes_store, plugFall_store]
    rfl
  · rw [replyBytes_lines, plugFall_lines_suspended]
  · rw [replyBytes_stations, plugFall_cab]
    rfl
  · obtain ⟨hstate, hdeparts⟩ := plugFall_departs (plugUsedSet true s) hk
    rw [replyBytes_stations]
    refine ⟨hstate, fun hpresent => ?_⟩
    obtain ⟨hrecord, hdeparted⟩ := hdeparts hpresent
    exact ⟨hrecord, SameStation.departed (u := plugUsedSet true s) ⟨rfl, rfl, rfl, rfl, fun _ _ => rfl⟩
      (departed_of_port _ (fun m hm => List.mem_append_left _ hm) hdeparted)⟩

end PlugUsed

/-- Settles O27. -/
theorem plugUsedActsAtOnce : Obligations.PlugUsedActsAtOnce := by
  intro s tag h hchange
  refine ⟨?_, fun hplugged => ?_, fun hpulled => ?_⟩
  · obtain ⟨t, ht, hframe⟩ := plugUsed_ends tag (s := acceptRequest 5 tag s) hchange
    exact ⟨t, next_handle h ht, hframe⟩
  · obtain ⟨t, ht, hframe⟩ := plugUsed_plugged tag (s := acceptRequest 5 tag s) hchange hplugged
    exact ⟨t, next_handle h ht, hframe⟩
  · obtain ⟨t, ht, hused, hsuspended, hcab, hall⟩ := plugUsed_falls tag (s := acceptRequest 5 tag s) hchange hpulled
    refine ⟨t, next_handle h ht, hused, hsuspended, hcab, fun k hk => ?_⟩
    obtain ⟨hstate, hdeparts⟩ := hall k hk
    refine ⟨hstate, fun hpresent => ?_⟩
    obtain ⟨hrecord, hdeparted⟩ := hdeparts hpresent
    rw [hrecord]
    exact ⟨rfl, rfl, rfl,
      SameStation.departed (u := acceptRequest 5 tag s) ⟨rfl, rfl, rfl, rfl, fun _ _ => rfl⟩ hdeparted⟩

end Sys2Proof.Proofs
end

section
/-! The teardown that completes a mode change (R42, R200). -/

namespace Sys2Proof.Proofs

open Sys2Proof Sys2Proof.Machine Sys2Proof.Safety Sys2Proof.Laws

/-! ### The records -/

/-- A record as the teardown leaves it (R42). -/
structure TornRecord (old new : StationRec) : Prop where
  state : new.state = .absent
  lastCause : new.lastCause = .mode
  identity : new.identity = old.identity
  recovery : new.recovery = old.recovery

theorem tearStation_record (s : State) (k : Stn) :
    TornRecord (s.stations.get k) ((tearStation s k).stations.get k) ∧
      ∀ k', k' ≠ k → (tearStation s k).stations.get k' = s.stations.get k' := by
  unfold tearStation leaveUnlessAbsent
  split
  · rename_i habsent
    rw [updStation, ByStn.get_set_self]
    exact ⟨⟨habsent, rfl, rfl, rfl⟩, fun k' hk' => ByStn.get_set_ne _ _ hk'⟩
  · obtain ⟨hrecord, hothers⟩ := leave_absent_record k .mode s
    rw [updStation, ByStn.get_set_self, hrecord]
    refine ⟨⟨rfl, rfl, rfl, rfl⟩, fun k' hk' => ?_⟩
    rw [ByStn.get_set_ne _ _ hk', hothers k' hk']

/-- Each station of a list without repetition is torn down once. -/
theorem tearStations_records (ks : List Stn) (hks : ks.Nodup) (s : State) :
    (∀ k ∈ ks, TornRecord (s.stations.get k) ((ks.foldl tearStation s).stations.get k)) ∧
      ∀ k, k ∉ ks → (ks.foldl tearStation s).stations.get k = s.stations.get k := by
  induction ks generalizing s with
  | nil => exact ⟨nofun, fun _ _ => rfl⟩
  | cons i ks ih =>
    obtain ⟨hi, hks'⟩ := List.nodup_cons.1 hks
    obtain ⟨hin, hout⟩ := ih hks' (tearStation s i)
    obtain ⟨htorn, hothers⟩ := tearStation_record s i
    rw [List.foldl_cons]
    refine ⟨fun k hk => ?_, fun k hk => ?_⟩
    · rcases List.mem_cons.1 hk with rfl | hk
      · rw [hout k hi]
        exact htorn
      · have hne : k ≠ i := fun he => hi (he ▸ hk)
        rw [← hothers k hne]
        exact hin k hk
    · rw [List.mem_cons, not_or] at hk
      rw [hout k hk.2, hothers k hk.1]

/-- Both lines' records after the teardown. -/
theorem tearLines_records (s : State) (k : Stn) :
    TornRecord (s.stations.get k) ((tearLine .c (tearLine .s s)).stations.get k) := by
  obtain ⟨hin, hout⟩ := tearStations_records (lineStations .s) (by decide) (updLine .s (tearEngine .s) s)
  obtain ⟨hin', hout'⟩ := tearStations_records (lineStations .c) (by decide)
    (updLine .c (tearEngine .c) (tearLine .s s))
  by_cases hk : k = .c1
  · subst hk
    have htorn := hin' .c1 (by decide)
    have hsame : (tearLine .s s).stations.get .c1 = s.stations.get .c1 := hout .c1 (by decide)
    rw [updLine_stations, hsame] at htorn
    exact htorn
  · have hc : k ∉ lineStations .c := by simpa [lineStations] using hk
    have hs : k ∈ lineStations .s := by
      cases k with
      | c1 => exact absurd rfl hk
      | s1 | s2 | s3 | s4 => decide
    have hsame : (tearLine .c (tearLine .s s)).stations.get k = (tearLine .s s).stations.get k := hout' k hc
    rw [hsame]
    exact hin k hs

/-! ### The lines -/

/-- An engine with empty schedules, no slot in progress and its pointers as after a reset (R42). -/
def TornEngine (l : Line) (e : LineEngine) : Prop :=
  e.next = [] ∧ e.slot = none ∧ e.probePtr = topAddress l ∧ e.paramPtr = topAddress l

theorem tornEngine_depart {l : Line} {e : LineEngine} (k : Stn) (h : TornEngine l e) :
    TornEngine l (departEngine k e) := by
  obtain ⟨hnext, hslot, hptrs⟩ := h
  refine ⟨?_, ?_, hptrs⟩
  · simp [departEngine, hnext]
  · simp [departEngine, hslot]

theorem tearStations_keep_engine (l : Line) (ks : List Stn) (s : State) (h : TornEngine l (s.lines.get l)) :
    TornEngine l ((ks.foldl tearStation s).lines.get l) := by
  refine foldl_keeps (P := fun u => TornEngine l (u.lines.get l)) _ (fun u k hu => ?_) ks s h
  unfold tearStation leaveUnlessAbsent
  split
  · exact hu
  · rw [updStation_lines, leave_lines, ByLine.get_set]
    split
    · rename_i hl
      subst hl
      exact tornEngine_depart k hu
    · exact hu

theorem tearLine_engine (l : Line) (s : State) : TornEngine l ((tearLine l s).lines.get l) :=
  tearStations_keep_engine l (lineStations l) _ (by
    rw [updLine_lines, ByLine.get_set_self]
    exact ⟨rfl, rfl, rfl, rfl⟩)

theorem tearLines_engines (s : State) (l : Line) : TornEngine l ((tearLine .c (tearLine .s s)).lines.get l) := by
  have hs := tearLine_engine .s s
  generalize tearLine .s s = u at hs ⊢
  cases l with
  | c => exact tearLine_engine .c u
  | s => exact tearStations_keep_engine .s (lineStations .c) (updLine .c (tearEngine .c) u) hs

/-! ### The new cycles -/

/-- Both lines' stations ABSENT and without raw records: a cycle that starts ages nothing. -/
def AllAbsent (s : State) : Prop := ∀ k, (s.stations.get k).state = .absent ∧ s.raw.get k = none

theorem ageStation_absent {s : State} (h : AllAbsent s) (k : Stn) : ageStation s k = s := by
  obtain ⟨hstate, hraw⟩ := h k
  have hage : ({ s with raw := s.raw.set k ((s.raw.get k).map (fun r => { r with age := satSucc 255 r.age })) } : State)
      = s := by
    rw [hraw, Option.map_none, ← hraw, ByStn.set_get]
  have hunmapped : isMapped (stateOf s k) = false := by
    rw [stateOf, hstate]
    rfl
  unfold ageStation
  dsimp only
  rw [hage, hunmapped]
  rfl

theorem ageStations_absent {s : State} (h : AllAbsent s) (ks : List Stn) : ks.foldl ageStation s = s :=
  foldl_keeps (P := fun u => u = s) _ (fun u k hu => by rw [hu, ageStation_absent h]) ks s rfl

/-- A cycle that starts with every station ABSENT takes its engine up and does no more than offer the cab's writes. -/
theorem startCycle_absent {s : State} (h : AllAbsent s) (l : Line) :
    (startCycle l s).stations = s.stations ∧ (startCycle l s).raw = s.raw ∧
      (startCycle l s).lines = s.lines.set l (takeUp s (s.lines.get l)) := by
  have haged : (lineStations l).foldl ageStation (updLine l (takeUp s) s) = updLine l (takeUp s) s :=
    ageStations_absent (s := updLine l (takeUp s) s) h _
  unfold startCycle
  dsimp only
  rw [haged]
  cases l with
  | s => exact ⟨rfl, rfl, rfl⟩
  | c =>
    exact ⟨offerCabWrites_keeps (inner_stations _).toPanel _ rfl, offerCabWrites_keeps (inner_raw _).toPanel _ rfl,
      offerCabWrites_keeps (inner_lines _).toPanel _ rfl⟩

/-- The engine of a torn line at its new cycle. -/
theorem takeUp_torn {l : Line} {e : LineEngine} (s : State) (h : TornEngine l e) :
    (takeUp s e).active = [] ∧ TornEngine l (takeUp s e) := by
  obtain ⟨hnext, -, hptrs⟩ := h
  exact ⟨hnext, hnext, rfl, hptrs⟩

/-- The state of a teardown ahead of its new cycles. -/
def tornDown (c : ModeChange) (s : State) : State :=
  { tearLine .c (tearLine .s s) with raw := .all none, hub := ⟨c.target, none⟩ }

theorem teardown_eq (c : ModeChange) (s : State) : teardown c s = hubModeChanged c.target
    (replyBytes 4 c.tag .ok [modeCode c.target] (startCycle .c (startCycle .s (tornDown c s)))) := rfl

theorem allAbsent_of {s : State} (h : ∀ k, (s.stations.get k).state = .absent) (m : ModeRec) :
    AllAbsent { s with raw := .all none, hub := m } := fun k => ⟨h k, ByStn.get_all none k⟩

theorem tornDown_absent (c : ModeChange) (s : State) : AllAbsent (tornDown c s) :=
  allAbsent_of (fun k => (tearLines_records s k).state) _

theorem tornDown_frame (c : ModeChange) (s : State) :
    (tornDown c s).stations = (tearLine .c (tearLine .s s)).stations ∧
      (tornDown c s).lines = (tearLine .c (tearLine .s s)).lines ∧ (tornDown c s).raw = .all none := by
  unfold tornDown
  generalize tearLine .c (tearLine .s s) = u
  exact ⟨rfl, rfl, rfl⟩

/-- The two new cycles of a teardown (R200). -/
theorem startCycles_absent {u : State} (habsent : AllAbsent u) (hengines : ∀ l, TornEngine l (u.lines.get l)) :
    (startCycle .c (startCycle .s u)).stations = u.stations ∧ (startCycle .c (startCycle .s u)).raw = u.raw ∧
      ∀ l, ((startCycle .c (startCycle .s u)).lines.get l).active = [] ∧
        TornEngine l ((startCycle .c (startCycle .s u)).lines.get l) := by
  obtain ⟨hstations, hraw, hlines⟩ := startCycle_absent habsent .s
  have habsent' : AllAbsent (startCycle .s u) := fun k => by
    rw [hstations, hraw]
    exact habsent k
  obtain ⟨hstations', hraw', hlines'⟩ := startCycle_absent habsent' .c
  refine ⟨hstations'.trans hstations, hraw'.trans hraw, fun l => ?_⟩
  rw [hlines', hlines]
  cases l with
  | s => exact takeUp_torn u (hengines .s)
  | c => exact takeUp_torn (startCycle .s u) (hengines .c)

/-- The reply and the HUB notice touch the port alone. -/
theorem hubModeChanged_frame (m : Mode) (code tag : Byte) (st : Status) (body : List Byte) (u : State) :
    (hubModeChanged m (replyBytes code tag st body u)).stations = u.stations ∧
      (hubModeChanged m (replyBytes code tag st body u)).raw = u.raw ∧
      (hubModeChanged m (replyBytes code tag st body u)).lines = u.lines := by
  rw [hubModeChanged, notice_stations, notice_raw, notice_lines]
  exact ⟨rfl, rfl, rfl⟩

theorem teardown_frame (c : ModeChange) (s : State) :
    (∀ k, TornRecord (s.stations.get k) ((teardown c s).stations.get k) ∧ (teardown c s).raw.get k = none) ∧
      ∀ l, ((teardown c s).lines.get l).active = [] ∧ TornEngine l ((teardown c s).lines.get l) := by
  obtain ⟨htstations, htlines, htraw⟩ := tornDown_frame c s
  obtain ⟨hstations, hraw, hengines⟩ := startCycles_absent (tornDown_absent c s) (fun l => by
    rw [htlines]
    exact tearLines_engines s l)
  obtain ⟨hstations', hraw', hlines'⟩ := hubModeChanged_frame c.target 4 c.tag .ok [modeCode c.target]
    (startCycle .c (startCycle .s (tornDown c s)))
  rw [teardown_eq, hstations', hraw', hlines', hstations, hraw, htstations, htraw]
  exact ⟨fun k => ⟨tearLines_records s k, ByStn.get_all none k⟩, hengines⟩

/-! ### The reply -/

theorem hubModeChanged_fifo (m : Mode) (s : State) : (hubModeChanged m s).port.fifo = s.port.fifo ∨
    (hubModeChanged m s).port.fifo = s.port.fifo ++ [⟨.notice, 134, 0, [0, modeCode m], false, false⟩] := by
  rcases notice_cases .hub [0, modeCode m] s with ⟨-, e⟩ | ⟨-, -, e⟩ | ⟨-, -, e⟩ <;> rw [hubModeChanged, e]
  · exact Or.inl rfl
  · exact Or.inl rfl
  · exact Or.inr rfl

theorem teardown_fifo (c : ModeChange) (s : State) :
    ∃ before, (teardown c s).port.fifo =
        before ++ [⟨.countedReply, 4, c.tag, [0, modeCode c.target], false, false⟩] ∨
      (teardown c s).port.fifo = before ++ [⟨.countedReply, 4, c.tag, [0, modeCode c.target], false, false⟩,
        ⟨.notice, 134, 0, [0, modeCode c.target], false, false⟩] := by
  rw [teardown_eq]
  generalize startCycle .c (startCycle .s (tornDown c s)) = u
  refine ⟨u.port.fifo, ?_⟩
  rcases hubModeChanged_fifo c.target (replyBytes 4 c.tag .ok [modeCode c.target] u) with hfifo | hfifo
  · exact Or.inl hfifo
  · refine Or.inr (hfifo.trans ?_)
    rw [replyBytes_fifo, List.append_assoc]
    rfl

/-- Settles O25. -/
theorem teardownCompletesChange : Obligations.TeardownCompletesChange := by
  intro s c hheld hchange hidle
  have hsome : s.hub.change.isSome = true := by rw [hchange]; rfl
  obtain ⟨hrecords, hengines⟩ := teardown_frame c s
  have hkeep : ∀ {P : State → Prop}, Torn P P → P s → P (teardown c s) := fun h hs => teardown_keeps h c s hsome hs
  have hstore := hkeep (torn_of (link_store s.store) (fun _ _ _ _ _ h => h) (fun _ _ _ h => h)) rfl
  have hprofiles := hkeep (torn_of (link_profiles s.profiles) (fun _ _ _ _ _ h => h) (fun _ _ _ h => h)) rfl
  have hlamps := hkeep (torn_of (link_lampLines s.lampLines) (fun _ _ _ _ _ h => h) (fun _ _ _ h => h)) rfl
  refine ⟨teardown c s,
      congrArg Host.Outcome.next ((unlessHeld_of_high hheld).trans (settleChange_tears hchange hidle)),
    teardown_hub c s, fun k => ?_, fun l => ?_, hstore, hprofiles, hlamps, teardown_fifo c s⟩
  · obtain ⟨⟨hstate, hcause, hidentity, hrecovery⟩, hraw⟩ := hrecords k
    exact ⟨hstate, hcause, hidentity, hrecovery, hraw⟩
  · exact hengines l

end Sys2Proof.Proofs
end

section
/-! The cab service (R161 to R164, R169 to R171): the mirror on its lamps, the selection, and the button edges. -/

namespace Sys2Proof.Proofs

open Sys2Proof Sys2Proof.Machine Sys2Proof.Safety Sys2Proof.Laws

/-! ### The mirror (R169, R170) -/

/-- A lamp behind one output of the mirror. -/
def mirroredLamp (c : GroupCopy) (a : AlertState) (now k : Nat) (l : LampRec) : LampRec :=
  if wantedMode c a k = latestMode l then l else lampOffer (wantedMode c a k) now l

theorem set_getD_lamp (lamps : List LampRec) (k : Nat) : lamps.set k (lamps.getD k LampRec.reset) = lamps := by
  rw [List.getD_eq_getElem?_getD]
  by_cases hk : k < lamps.length
  · simp [hk]
  · exact List.set_eq_of_length_le (by omega)

theorem mirrorOne_cab (s : State) (k : Nat) : (mirrorOne s k).cab = { s.cab with
    lamps := s.cab.lamps.set k
      (mirroredLamp (s.cab.copies.get s.cab.selected) s.cab.alert.state s.now k (cabLamp s k)) } := by
  unfold mirrorOne mirroredLamp
  dsimp only
  split
  · rw [cabLamp, set_getD_lamp]
  · exact setCabLamp_cab _ _ _

theorem mirrorOne_now (s : State) (k : Nat) : (mirrorOne s k).now = s.now :=
  mirrorOne_keeps (inner_now _).toPanel s k rfl

/-- The lamps behind the mirror of some outputs: everything else of the cab service stands. -/
theorem mirrorFold_cab (ks : List Nat) : ∀ s : State, ks.Nodup → (∀ k ∈ ks, k < s.cab.lamps.length) →
    ∃ lamps : List LampRec, (ks.foldl mirrorOne s).cab = { s.cab with lamps := lamps } ∧
      lamps.length = s.cab.lamps.length ∧ ∀ k, lamps.getD k LampRec.reset =
        if k ∈ ks then mirroredLamp (s.cab.copies.get s.cab.selected) s.cab.alert.state s.now k (cabLamp s k)
        else cabLamp s k := by
  induction ks with
  | nil => exact fun s _ _ => ⟨s.cab.lamps, rfl, rfl, fun k => by simp [cabLamp]⟩
  | cons i ks ih =>
    intro s hks hlength
    obtain ⟨hi, hks'⟩ := List.nodup_cons.1 hks
    have hcab := mirrorOne_cab s i
    obtain ⟨lamps, hfold, hlen, hlamps⟩ := ih (mirrorOne s i) hks' (fun k hk => by
      rw [hcab, List.length_set]
      exact hlength k (List.mem_cons_of_mem _ hk))
    refine ⟨lamps, ?_, ?_, fun k => ?_⟩
    · rw [List.foldl_cons, hfold, hcab]
    · rw [hlen, hcab, List.length_set]
    · have hat : cabLamp (mirrorOne s i) k = if k = i ∧ i < s.cab.lamps.length then
          mirroredLamp (s.cab.copies.get s.cab.selected) s.cab.alert.state s.now i (cabLamp s i)
          else cabLamp s k := by
        rw [cabLamp, hcab, getD_set_lamp]
        rfl
      rw [hlamps, hat, mirrorOne_now, hcab]
      dsimp only
      by_cases hk : k = i
      · subst hk
        rw [if_neg hi, if_pos ⟨rfl, hlength k (List.mem_cons_self ..)⟩, if_pos (List.mem_cons_self ..)]
      · have hmem : k ∈ i :: ks ↔ k ∈ ks := by simp [hk]
        simp only [hk, false_and, if_false, hmem]

/-- The mirror replaces lamps alone. -/
theorem mirror_cab {s : State} (h : s.cab.lamps.length = 12) : ∃ lamps : List LampRec,
    (mirror s).cab = { s.cab with lamps := lamps } ∧ lamps.length = 12 ∧ ∀ k, k < 12 → lamps.getD k LampRec.reset =
      mirroredLamp (s.cab.copies.get s.cab.selected) s.cab.alert.state s.now k (cabLamp s k) := by
  have hmem : ∀ k, k ∈ ownedOutputs ↔ k < 12 := fun k => by
    simp only [ownedOutputs, List.mem_cons, List.not_mem_nil, or_false]
    omega
  obtain ⟨lamps, hcab, hlength, hlamps⟩ := mirrorFold_cab ownedOutputs s (by decide) (fun k hk => by
    rw [h]
    exact (hmem k).1 hk)
  exact ⟨lamps, hcab, hlength.trans h, fun k hk => by rw [hlamps, if_pos ((hmem k).2 hk)]⟩

/-- The landed lamp (R169). -/
theorem wantedMode_landed (c : GroupCopy) (a : AlertState) : wantedMode c a 2 =
    if c.landed = .allLanded then .on else if c.landed = .partly then .flashSlow else .off := by
  cases hlanded : c.landed <;> simp [wantedMode, hlanded]

/-- The alert lamp (R169). -/
theorem wantedMode_alert (c : GroupCopy) (a : AlertState) : wantedMode c a 6 =
    if a = .sounding then .flashFast else if a = .resting then .flashSlow else .off := by
  cases a <;> rfl

theorem wantedMode_eq (c : GroupCopy) (a : AlertState) (k : Nat) : k < 12 → wantedMode c a k = (match k with
    | 0 => if c.lock = .allLocked then .on else .off
    | 1 => if c.lock = .allUnlocked then .on else .off
    | 2 => if c.landed = .allLanded then .on else if c.landed = .partly then .flashSlow else .off
    | 3 => if c.permit then .on else .off
    | 4 => if c.owner = .cab then .on else if c.cabMark then .flashFast
      else if c.owner = .remote then .flashSlow else .off
    | 5 => if c.failure then .on else .off
    | 6 => if a = .sounding then .flashFast else if a = .resting then .flashSlow else .off
    | 7 => if a = .sounding then .on else .off
    | 8 => if c.size = .at20 then .on else .off
    | 9 => if c.size = .at40 then .on else .off
    | 10 => if c.size = .at45 then .on else .off
    | _ => if c.trip then .on else .off) := by
  intro hk
  by_cases hlanded : k = 2
  · subst hlanded
    exact wantedMode_landed c a
  · by_cases halert : k = 6
    · subst halert
      exact wantedMode_alert c a
    · interval_cases k <;> simp [wantedMode, onIf] at hlanded halert ⊢

theorem mirroredLamp_eq (c : GroupCopy) (a : AlertState) (now k : Nat) (l : LampRec) {m : LampMode}
    (hm : wantedMode c a k = m) : mirroredLamp c a now k l =
      if l.held.getD l.mode = m then l
      else if l.mode = .flashSlow ∨ l.mode = .flashFast then { l with held := some m }
      else ⟨m, none, decide (m ≠ .off),
        if m = .flashSlow then some (now + 500) else if m = .flashFast then some (now + 125) else none⟩ := by
  subst hm
  unfold mirroredLamp latestMode
  by_cases hsame : l.held.getD l.mode = wantedMode c a k
  · rw [if_pos hsame.symm, if_pos hsame]
  · rw [if_neg (fun h => hsame h.symm), if_neg hsame]
    by_cases hflash : l.mode = .flashSlow ∨ l.mode = .flashFast
    · rw [if_pos hflash, lampOffer_flashing hflash]
    · rw [if_neg hflash, lampOffer_still]
      rw [← Bool.not_eq_true, isFlashing_iff]
      exact hflash

/-- A hand-off about a group: its copy is replaced, and for the selected group the lamps follow (R161, R170). -/
theorem handCopy_cab (g : Group) (f : GroupCopy → GroupCopy) {s : State} (h : s.cab.lamps.length = 12) :
    ∃ lamps : List LampRec, (handCopy g f s).cab =
        { s.cab with copies := s.cab.copies.set g (f (s.cab.copies.get g)), lamps := lamps } ∧
      lamps.length = 12 ∧ (g ≠ s.cab.selected → lamps = s.cab.lamps) ∧
      (g = s.cab.selected → ∀ k, k < 12 → lamps.getD k LampRec.reset =
        mirroredLamp (f (s.cab.copies.get g)) s.cab.alert.state s.now k (cabLamp s k)) := by
  have hcopy : (updCopy g f s).cab = { s.cab with copies := s.cab.copies.set g (f (s.cab.copies.get g)) } := rfl
  unfold handCopy
  dsimp only
  by_cases hg : s.cab.selected = g
  · obtain ⟨lamps, hcab, hlength, hlamps⟩ := mirror_cab (s := updCopy g f s) h
    have hselected : (updCopy g f s).cab.selected = g := hg
    rw [if_pos hselected]
    refine ⟨lamps, by rw [hcab, hcopy], hlength, fun hne => absurd hg.symm hne, fun _ k hk => ?_⟩
    rw [hlamps k hk, hselected, hcopy]
    dsimp only
    rw [ByGroup.get_set_self]
    rfl
  · have hselected : ¬ (updCopy g f s).cab.selected = g := hg
    rw [if_neg hselected]
    exact ⟨s.cab.lamps, hcopy, h, fun _ => rfl, fun he => absurd he.symm hg⟩

/-! ### The selection stands (R163) -/

theorem mirrorOne_selected (s : State) (k : Nat) : (mirrorOne s k).cab.selected = s.cab.selected := by
  rw [mirrorOne_cab]

theorem mirrorFold_selected (ks : List Nat) :
    ∀ s : State, (ks.foldl mirrorOne s).cab.selected = s.cab.selected := by
  induction ks with
  | nil => exact fun _ => rfl
  | cons k ks ih => exact fun s => (ih _).trans (mirrorOne_selected s k)

theorem mirror_selected (s : State) : (mirror s).cab.selected = s.cab.selected := by
  unfold mirror
  exact mirrorFold_selected ownedOutputs s

theorem handCopy_selected (g : Group) (f : GroupCopy → GroupCopy) (s : State) :
    (handCopy g f s).cab.selected = s.cab.selected := by
  unfold handCopy
  dsimp only
  split
  · rw [mirror_selected]
    rfl
  · rfl

theorem raiseAlert_selected (r : AlertReason) (s : State) : (raiseAlert r s).cab.selected = s.cab.selected := by
  unfold raiseAlert
  dsimp only
  split
  · rw [mirror_selected, alertNotice_cab]
    rfl
  · rw [mirror_selected]
    rfl
  · rfl

theorem publishGroup_selected (before : GroupRec) (g : Group) (s : State) :
    (publishGroup before g s).cab.selected = s.cab.selected := by
  unfold publishGroup
  dsimp only
  rw [handGroup, handCopy_selected]
  split
  · rw [drivePermit_cab]
  · rw [groupNotice, notice_cab, drivePermit_cab]

theorem evaluateFrom_selected (before : GroupRec) (g : Group) (s : State) :
    (evaluateFrom before g s).cab.selected = s.cab.selected := by
  unfold evaluateFrom
  split
  · dsimp only
    split
    · rw [raiseAlert_selected, publishGroup_selected]
      rfl
    · rw [publishGroup_selected]
      rfl
  · rfl

theorem storeResult_selected (g : Group) (src : Source) (r : OpResult) (s : State) :
    (storeResult g src r s).cab.selected = s.cab.selected := by
  cases src with
  | cab => exact handCopy_selected _ _ _
  | remote => rfl

theorem settling_selected (x : Group) : Settling (fun _ => True) (fun t => t.cab.selected = x) where
  notice _ _ _ h := by rwa [notice_cab]
  alert _ _ h := by rwa [raiseAlert_selected]
  copy _ _ _ _ h := by rwa [handCopy_selected]
  report new s h := by
    unfold reportCabStation
    dsimp only
    split
    · rw [offerCabWrites_cab]
      exact h
    · exact h
  evaluated _ _ _ _ h := by rwa [evaluateFrom_selected]
  release _ _ h := by rwa [releaseDrive_cab]
  idle _ _ _ h := h
  stored _ _ _ _ _ h := by rwa [storeResult_selected]
  choices _ _ h := h
  unmark _ _ _ _ h := h
  unown _ _ _ h := h

end Sys2Proof.Proofs
end

section
/-! The cab service on a change set (R163 to R166), and O59. -/

namespace Sys2Proof.Proofs

open Sys2Proof Sys2Proof.Machine Sys2Proof.Safety Sys2Proof.Laws

/-! ### The entries of a change set (R77) -/

theorem mem_changesFrom {c : Change} (old : List Point) : ∀ (n : Nat) (new : List Point),
    c ∈ changesFrom n old new ↔ ∃ j p q, old[j]? = some p ∧ new[j]? = some q ∧ samePoint p q = false ∧
      c = changeOf (n + j) p q := by
  induction old with
  | nil => intro n new; cases new <;> simp [changesFrom]
  | cons p ps ih =>
    intro n new
    cases new with
    | nil => simp [changesFrom]
    | cons q qs =>
      have hrest : (∃ j p' q', ps[j]? = some p' ∧ qs[j]? = some q' ∧ samePoint p' q' = false ∧
          c = changeOf (n + 1 + j) p' q') ↔ ∃ j p' q', (p :: ps)[j + 1]? = some p' ∧ (q :: qs)[j + 1]? = some q' ∧
            samePoint p' q' = false ∧ c = changeOf (n + (j + 1)) p' q' := by
        simp only [List.getElem?_cons_succ, Nat.add_right_comm n 1, Nat.add_assoc]
      have hsplit : (∃ j p' q', (p :: ps)[j]? = some p' ∧ (q :: qs)[j]? = some q' ∧ samePoint p' q' = false ∧
          c = changeOf (n + j) p' q') ↔ (samePoint p q = false ∧ c = changeOf n p q) ∨
            ∃ j p' q', (p :: ps)[j + 1]? = some p' ∧ (q :: qs)[j + 1]? = some q' ∧ samePoint p' q' = false ∧
              c = changeOf (n + (j + 1)) p' q' := by
        constructor
        · rintro ⟨j, p', q', hp, hq, hdiffer, hc⟩
          cases j with
          | zero =>
            simp only [List.getElem?_cons_zero, Option.some.injEq] at hp hq
            subst hp hq
            exact Or.inl ⟨hdiffer, hc⟩
          | succ j => exact Or.inr ⟨j, p', q', hp, hq, hdiffer, hc⟩
        · rintro (⟨hdiffer, hc⟩ | ⟨j, p', q', hp, hq, hdiffer, hc⟩)
          · exact ⟨0, p, q, rfl, rfl, hdiffer, hc⟩
          · exact ⟨j + 1, p', q', hp, hq, hdiffer, hc⟩
      rw [hsplit, ← hrest, ← ih, changesFrom]
      cases hsame : samePoint p q <;> simp

theorem changesFrom_self (ps : List Point) : ∀ n, changesFrom n ps ps = [] := by
  induction ps with
  | nil => exact fun _ => rfl
  | cons p ps ih => exact fun n => by simp [changesFrom, samePoint_self, ih]

/-- The change set of one point's new record. -/
theorem changesFrom_set {p : Point} (ps : List Point) : ∀ (n i : Nat) (q : Point), ps[i]? = some p →
    changesFrom n ps (ps.set i q) = if samePoint p q then [] else [changeOf (n + i) p q] := by
  induction ps with
  | nil => intro n i q h; simp at h
  | cons r ps ih =>
    intro n i q h
    cases i with
    | zero =>
      simp only [List.getElem?_cons_zero, Option.some.injEq] at h
      subst h
      simp [changesFrom, changesFrom_self]
    | succ i =>
      rw [List.getElem?_cons_succ] at h
      simp only [List.set_cons_succ, changesFrom, samePoint_self, if_true]
      rw [ih (n + 1) i q h, Nat.add_right_comm n 1 i, Nat.add_assoc n i 1]

theorem samePoint_iff (p q : Point) : samePoint p q = true ↔ p.value = q.value ∧ p.quality = q.quality := by
  simp [samePoint]

/-! ### The receivers leave the selection -/

theorem commitPoints_cab (new : List Point) (s : State) : (commitPoints new s).1.cab = s.cab := by
  have hstate := congrArg State.cab (commitQuiet_state new s)
  exact hstate

theorem interlockReads_selected (cs : List Change) (s : State) :
    (interlockReads cs s).cab.selected = s.cab.selected := by
  refine foldl_keeps (P := fun t => t.cab.selected = s.cab.selected) _ (fun t g ht => ?_) groupsList s rfl
  split
  · exact evaluate_settling (settling_selected _) trivial t ht
  · exact ht

section Buttons

variable (g : Group) (s : State)

theorem cabRefused_selected (q : CabRequest) (st : Status) : (cabRefused g q st s).cab.selected = s.cab.selected := by
  rw [cabRefused, operationNotice, notice_cab, storeResult_selected]

theorem enterEntries_cab (k : Stn) (es : List Entry) : (enterEntries k es s).cab = s.cab :=
  enterEntries_keeps (image_cab s.cab) k es s rfl

theorem cabOperate_selected (kind : OpKind) : (cabOperate g kind s).cab.selected = s.cab.selected := by
  unfold cabOperate
  split
  · exact cabRefused_selected _ _ _ _
  · rw [immediateDone, operationNotice, notice_cab, storeResult_selected]
  · unfold startOperation
    dsimp only
    refine evaluate_settling (settling_selected _) trivial _ ?_
    rw [operationNotice, notice_cab]
    show (enterEntries _ _ s).cab.selected = _
    rw [enterEntries_cab]

theorem cabStop_selected : (cabStop g s).cab.selected = s.cab.selected := by
  unfold cabStop stopOperation
  split
  · split
    · exact endOperation_settling (settling_selected _) trivial _ s rfl
    · rfl
  · exact cabRefused_selected _ _ _ _

theorem setMark_selected (src : Source) (m : Option Mark) : (setMark g src m s).cab.selected = s.cab.selected := by
  cases src with
  | cab => exact handCopy_selected _ _ _
  | remote => rfl

theorem removeMark_selected (src : Source) : (removeMark g src s).cab.selected = s.cab.selected := by
  unfold removeMark
  split
  · exact setMark_selected _ _ _ _
  · rfl

theorem ownerChange_selected (new : Owner) (c : ClaimCause) (a : AbortReason) :
    (ownerChange g new c a s).cab.selected = s.cab.selected := by
  refine endOperation_settling (settling_selected _) trivial _ _ ?_
  rw [handCopy_selected, claimNotice, notice_cab]
  rfl

theorem cabClaimRead_selected : (cabClaimRead g s).cab.selected = s.cab.selected := by
  unfold cabClaimRead
  split
  · exact cabRefused_selected _ _ _ _
  · exact setMark_selected _ _ _ _

theorem claimSetTake_selected (src : Source) : (claimSetTake g src s).1.cab.selected = s.cab.selected := by
  unfold claimSetTake
  split
  · split
    · exact removeMark_selected _ _ _
    · exact ownerChange_selected _ _ _ _ _
  · exact removeMark_selected _ _ _

theorem cabClaimSet_selected : (cabClaimSet g s).cab.selected = s.cab.selected := by
  unfold cabClaimSet
  split
  · exact cabRefused_selected _ _ _ _
  · dsimp only
    split
    · exact claimSetTake_selected _ _ _
    · rw [cabRefused_selected, claimSetTake_selected]

theorem cabClaimRelease_selected : (cabClaimRelease g s).cab.selected = s.cab.selected := by
  unfold cabClaimRelease
  split
  · exact ownerChange_selected _ _ _ _ _
  · exact cabRefused_selected _ _ _ _

theorem ackAlert_selected : (ackAlert s).cab.selected = s.cab.selected := by
  rw [ackAlert, mirror_selected, alertNotice_cab]
  rfl

theorem takeResult_selected (src : Source) : (takeResult g src s).cab.selected = s.cab.selected := by
  cases src with
  | cab => exact handCopy_selected _ _ _
  | remote => rfl

theorem cabTripClear_selected : (cabTripClear g s).cab.selected = s.cab.selected := by
  unfold cabTripClear
  split
  · exact cabRefused_selected _ _ _ _
  · rfl
  · refine handToEngine_settling (settling_selected _) trivial _ ?_
    rw [evaluateFrom_selected]
    rfl

/-- No button moves the selection. -/
theorem pressButton_selected (k : Nat) : (pressButton k g s).cab.selected = s.cab.selected := by
  unfold pressButton
  split
  · exact cabOperate_selected _ _ _
  · exact cabOperate_selected _ _ _
  · exact cabOperate_selected _ _ _
  · exact cabOperate_selected _ _ _
  · exact cabOperate_selected _ _ _
  · exact cabOperate_selected _ _ _
  · exact cabOperate_selected _ _ _
  · exact cabStop_selected _ _
  · split
    · exact cabClaimSet_selected _ _
    · exact cabClaimRead_selected _ _
  · exact cabClaimRelease_selected _ _
  · rw [takeResult_selected, ackAlert_selected]
  · exact cabTripClear_selected _ _
  · rfl

end Buttons

theorem cabReads_selected (cs : List Change) (s : State) :
    (cabReads cs s).cab.selected = (selectGroup cs s).cab.selected :=
  foldl_keeps (P := fun t => t.cab.selected = (selectGroup cs s).cab.selected) pressEdge
    (fun t c ht => (pressButton_selected t.cab.selected t (c.index - 16)).trans ht) _ _ rfl

/-! ### The selection (R163) -/

/-- Whether an entry selects a group: one for point 28 with quality GOOD. -/
def selects (c : Change) : Bool := c.index == 28 && c.newQuality == .good

theorem selectGroup_none {cs : List Change} {s : State} (h : cs.find? selects = none) : selectGroup cs s = s := by
  have h' : cs.find? (fun c => c.index == 28 && c.newQuality == .good) = none := h
  rw [selectGroup, h']

theorem selectGroup_some {cs : List Change} {s : State} {c : Change} (h : cs.find? selects = some c) :
    (selectGroup cs s).cab.selected = if c.newValue = 0 then .a else .b := by
  have h' : cs.find? (fun c => c.index == 28 && c.newQuality == .good) = some c := h
  rw [selectGroup, h']
  dsimp only
  generalize (if c.newValue = 0 then Group.a else Group.b) = g
  split
  · rename_i hsame
    exact hsame
  · rw [mirror_selected]
    rfl

/-- The entry of a change set that selects. -/
theorem find_selects {old new : List Point} {p q : Point} (hp : old[28]? = some p) (hq : new[28]? = some q) :
    (changesFrom 0 old new).find? selects =
      if (p.value ≠ q.value ∨ p.quality ≠ q.quality) ∧ q.quality = .good then some (changeOf 28 p q) else none := by
  have honly : ∀ c ∈ changesFrom 0 old new, selects c = true →
      c = changeOf 28 p q ∧ samePoint p q = false ∧ q.quality = .good := by
    intro c hc hselects
    obtain ⟨j, p', q', hp', hq', hdiffer, rfl⟩ := (mem_changesFrom old 0 new).1 hc
    simp only [selects, changeOf, Nat.zero_add, Bool.and_eq_true, beq_iff_eq] at hselects
    obtain ⟨rfl, hgood⟩ := hselects
    obtain rfl : p = p' := Option.some.inj (hp.symm.trans hp')
    obtain rfl : q = q' := Option.some.inj (hq.symm.trans hq')
    exact ⟨by rw [Nat.zero_add], hdiffer, hgood⟩
  split
  · rename_i hmoves
    obtain ⟨hdiffer, hgood⟩ := hmoves
    have hmem : changeOf 28 p q ∈ changesFrom 0 old new := (mem_changesFrom old 0 new).2
      ⟨28, p, q, hp, hq, samePoint_eq_false hdiffer, rfl⟩
    have hselects : selects (changeOf 28 p q) = true := by simp [selects, changeOf, hgood]
    cases hfind : (changesFrom 0 old new).find? selects with
    | none => exact absurd hselects (List.find?_eq_none.1 hfind _ hmem)
    | some c => rw [(honly c (List.mem_of_find?_eq_some hfind) (List.find?_some hfind)).1]
  · rename_i hstays
    rw [List.find?_eq_none]
    intro c hc hselects
    obtain ⟨-, hdiffer, hgood⟩ := honly c hc hselects
    refine hstays ⟨?_, hgood⟩
    rw [← not_and_or, ← samePoint_iff, hdiffer]
    exact Bool.false_ne_true

theorem deliverPoints_selected {s : State} {new : List Point} {p q : Point} (hp : s.points[28]? = some p)
    (hq : new[28]? = some q) : (deliverPoints new s).cab.selected =
      if (p.value ≠ q.value ∨ p.quality ≠ q.quality) ∧ q.quality = .good then (if q.value = 0 then .a else .b)
      else s.cab.selected := by
  have hread : (interlockReads (commitPoints new s).2 (commitPoints new s).1).cab.selected = s.cab.selected := by
    rw [interlockReads_selected, commitPoints_cab]
  have hfind : (commitPoints new s).2.find? selects = _ := find_selects hp hq
  unfold deliverPoints
  dsimp only
  rw [cabReads_selected]
  split
  · rename_i hmoves
    rw [if_pos hmoves] at hfind
    rw [selectGroup_some hfind]
    rfl
  · rename_i hstays
    rw [if_neg hstays] at hfind
    rw [selectGroup_none hfind, hread]

/-! ### The buttons (R162, R164, R165) -/

theorem deliverPoints_one {s : State} {i : Nat} {p : Point} (q : Point) (hp : s.points[i]? = some p)
    (hdiffer : p.value ≠ q.value ∨ p.quality ≠ q.quality) : deliverPoints (s.points.set i q) s =
      cabReads [changeOf i p q] (interlockReads [changeOf i p q] (commitPoints (s.points.set i q) s).1) := by
  have hchanges : (commitPoints (s.points.set i q) s).2 = [changeOf i p q] := by
    show changesFrom 0 s.points (s.points.set i q) = _
    rw [changesFrom_set s.points 0 i q hp, samePoint_eq_false hdiffer, Nat.zero_add]
    rfl
  unfold deliverPoints
  dsimp only
  rw [hchanges]

theorem isEdge_changeOf {b : Nat} (hb : b < 12) (p q : Point) : isEdge (changeOf (16 + b) p q) = true ↔
    p.quality = .good ∧ q.quality = .good ∧ p.value = 0 ∧ q.value = 1 := by
  have hlow : 16 ≤ 16 + b := by omega
  have hhigh : 16 + b ≤ 27 := by omega
  simp only [isEdge, changeOf, hlow, hhigh, decide_true, Bool.true_and, Bool.and_eq_true, beq_iff_eq]
  tauto

/-- A change of one button's point is that button's request, or none (R164). -/
theorem cabReads_button {b : Nat} (hb : b < 12) (p q : Point) (u : State) : cabReads [changeOf (16 + b) p q] u =
    if p.quality = .good ∧ q.quality = .good ∧ p.value = 0 ∧ q.value = 1 then pressButton b u.cab.selected u
    else u := by
  have hselect : selectGroup [changeOf (16 + b) p q] u = u := by
    refine selectGroup_none (List.find?_eq_none.2 fun c hc => ?_)
    have hindex : 16 + b ≠ 28 := by omega
    rw [List.mem_singleton.1 hc]
    simp [selects, changeOf, hindex]
  have hbutton : (changeOf (16 + b) p q).index - 16 = b := by
    show 16 + b - 16 = b
    omega
  unfold cabReads
  rw [hselect]
  by_cases hedge : isEdge (changeOf (16 + b) p q) = true
  · rw [if_pos ((isEdge_changeOf hb p q).1 hedge), List.filter_cons_of_pos hedge]
    show pressButton ((changeOf (16 + b) p q).index - 16) u.cab.selected u = _
    rw [hbutton]
  · rw [if_neg (fun h => hedge ((isEdge_changeOf hb p q).2 h)), List.filter_cons_of_neg hedge]
    rfl

/-- Settles O59. -/
theorem cabServiceSelectsAndMirrors : Obligations.CabServiceSelectsAndMirrors := by
  refine ⟨fun s g f t hlamps ht => ?_, fun s new p q hp hq => deliverPoints_selected hp hq,
    fun s b p q u hb hp hu => ?_⟩
  · subst ht
    obtain ⟨lamps, hcab, hlength, hother, hself⟩ := handCopy_cab g f hlamps
    have hlamp : ∀ k, cabLamp (handCopy g f s) k = lamps.getD k LampRec.reset := fun k => by rw [cabLamp, hcab]
    simp only [hlamp]
    rw [hcab]
    refine ⟨rfl, rfl, rfl, rfl, hlength, hother, fun hg k c m hk hc hm => ?_⟩
    have hcopy : c = f (s.cab.copies.get g) := by
      rw [hc]
      exact ByGroup.get_set_self _ _ _
    rw [hself hg k hk, ← hcopy]
    exact mirroredLamp_eq _ _ _ _ _ ((wantedMode_eq c s.cab.alert.state k hk).trans hm.symm)
  · have hselected : u.cab.selected = s.cab.selected := by rw [hu, interlockReads_selected, commitPoints_cab]
    have hdelivers : (p.value ≠ q.value ∨ p.quality ≠ q.quality) → deliverPoints (s.points.set (16 + b) q) s =
        cabReads [changeOf (16 + b) p q] u := fun hdiffer => by
      rw [deliverPoints_one q hp hdiffer, hu]
      rfl
    refine ⟨fun hpgood hqgood hold hnew => ?_, fun hnoedge hdiffer => ?_⟩
    · rw [hdelivers (Or.inl (by rw [hold, hnew]; decide)), cabReads_button hb,
        if_pos ⟨hpgood, hqgood, hold, hnew⟩, hselected]
      interval_cases b <;> rfl
    · rw [hdelivers hdiffer, cabReads_button hb, if_neg]
      rintro ⟨hpgood, hqgood, hold, hnew⟩
      rcases hnoedge with h | h | h | h
      · exact h hpgood
      · exact h hqgood
      · exact h hold
      · exact h hnew

end Sys2Proof.Proofs
end

section
/-! A missed SCAN (R31 to R35): the record below the limit and at the limit under each policy, and the alert of a
departure (R118, R155, R174). -/

namespace Sys2Proof.Proofs

open Sys2Proof Sys2Proof.Machine Sys2Proof.Safety Sys2Proof.Laws

/-! ### The alert through a departure -/

/-- A reason of the alert that no other reason takes away. -/
structure Reason (F : AlertReasons → Bool) : Prop where
  stays : ∀ r x, F x = true → F (addReason r x) = true

/-- The alert sounds, with a reason. -/
def Alerted (F : AlertReasons → Bool) (t : State) : Prop :=
  F t.cab.alert.reasons = true ∧ t.cab.alert.state = .sounding

section Alerts

variable {F : AlertReasons → Bool} (hF : Reason F)

include hF

theorem alerted_raised (why : AlertReason) (timer : Nat) {a : Alert} (h : F a.reasons = true) :
    F (raised why timer a).reasons = true ∧ (raised why timer a).state = .sounding := by
  rw [raised_reasons]
  exact ⟨hF.stays why _ h, raised_state _ _ _⟩

theorem settling_alerted (G : Group → Prop) : Settling G (Alerted F) where
  notice _ _ _ h := by
    unfold Alerted
    rwa [notice_cab]
  alert r s h := by
    unfold Alerted
    rw [raiseAlert_alert]
    exact alerted_raised hF r _ h.1
  copy _ _ _ _ h := by
    unfold Alerted
    rwa [handCopy_alert]
  report new s h := by
    unfold reportCabStation
    dsimp only
    split
    · unfold Alerted
      rw [offerCabWrites_cab]
      exact h
    · exact h
  evaluated before g s _ h := by
    unfold Alerted
    rw [evaluateFrom_alert]
    split
    · exact alerted_raised hF _ _ h.1
    · exact h
  release _ _ h := by
    unfold Alerted
    rwa [releaseDrive_cab]
  idle _ _ _ h := h
  stored _ _ _ _ _ h := by
    unfold Alerted
    rwa [storeResult_alert]
  choices _ _ h := h
  unmark _ _ _ _ h := h
  unown _ _ _ h := h

/-- An end that raises an alert reason leaves it raised. -/
theorem endOperation_alerted {e : Ending} {why : AlertReason} (hwhy : endAlert e = some why)
    (hadds : ∀ x, F (addReason why x) = true) {s : State} {g : Group} {r : OpRec} (hop : s.ops.get g = some r) :
    Alerted F (endOperation g e s) := by
  obtain ⟨insecure, timer, halert⟩ := endOperation_alert e hop
  have hraised : F (endRaised e (s.now + s.store.working.soundMs) s.cab.alert).reasons = true ∧
      (endRaised e (s.now + s.store.working.soundMs) s.cab.alert).state = .sounding := by
    unfold endRaised
    rw [hwhy]
    dsimp only
    rw [raised_reasons]
    exact ⟨hadds _, raised_state _ _ _⟩
  unfold Alerted
  rw [halert]
  split
  · exact alerted_raised hF _ _ hraised.1
  · exact hraised

end Alerts

theorem reason_linkLostLoaded : Reason (·.linkLostLoaded) := ⟨fun r x h => by cases r <;> simp_all [addReason]⟩
theorem reason_opAborted : Reason (·.opAborted) := ⟨fun r x h => by cases r <;> simp_all [addReason]⟩

theorem raiseAlert_alerted {F : AlertReasons → Bool} {why : AlertReason} (hadds : ∀ x, F (addReason why x) = true)
    (s : State) : Alerted F (raiseAlert why s) := by
  unfold Alerted
  rw [raiseAlert_alert, raised_reasons]
  exact ⟨hadds _, raised_state _ _ _⟩

/-- A departure with the group locked and not all landed raises LINK_LOST_LOADED (R118). -/
theorem leave_linkLostLoaded {k : Stn} {new : StationState} (habsent : new ≠ .absent) {cause : LastCause} {s : State}
    (hloaded : leftLoaded k s = true) : Alerted (·.linkLostLoaded) (leave k new cause s) := by
  have hsettle := settling_alerted reason_linkLostLoaded (fun _ => True)
  have hraised : Alerted (·.linkLostLoaded) (leaveAlert (leftLoaded k s) (leaveStart k new cause s)) := by
    rw [leaveAlert, if_pos hloaded]
    exact raiseAlert_alerted (fun _ => rfl) _
  rw [leave_eq]
  exact leaveReport_settling hsettle (fun _ _ => trivial) _ _ _ (leaveUnbind_settling hsettle (fun _ _ => trivial)
    (fun _ _ _ hnew _ => absurd hnew habsent) _ (show Alerted _ (updStation k (dropProfile new) _) from
      leaveGroup_settling hsettle (fun _ _ => trivial) _ hraised))

/-! ### The operation of a departing station's group -/

/-- An evaluation with a corner's landed point that is not GOOD ends an operation that requires landing as LIFTED. -/
theorem evaluate_lifts {s : State} {g : Group} {r : OpRec} (hbound : (s.groups.get g).bound = true)
    (hop : s.ops.get g = some r) (hlanding : r.landingRequired = true)
    (hcorner : ∃ c ∈ (s.groups.get g).corners, (pointAt s c.landed).quality ≠ .good) :
    Alerted (·.opAborted) (evaluate g s) := by
  have hgroups : (evaluateRecord g s).groups.get g = evalRecord s g := by
    rw [evaluateRecord, evaluateFrom_groups, if_pos hbound, ByGroup.get_set_self]
  have hop' : (evaluateRecord g s).ops.get g = some r := by
    rw [evaluateRecord, (evaluateFrom_frame _ _ _).1, hop]
  have hlanded : (evalRecord s g).landed = .unknown := by
    rw [evalRecord_landed_tests, if_pos hcorner]
  have hlifted : evaluate g s = endOperation g (.aborted .lifted) (evaluateRecord g s) := by
    unfold evaluate
    rw [if_pos hbound]
    unfold handToEngine
    rw [hop']
    dsimp only
    rw [hgroups, hlanding, hlanded]
    rfl
  rw [hlifted]
  exact endOperation_alerted reason_opAborted rfl (fun _ => rfl) hop'

theorem departGroup_aborts {s : State} {g : Group} {r : OpRec} (hbound : (s.groups.get g).bound = true)
    (hop : s.ops.get g = some r) (hends : r.landingRequired = false ∨
      ∃ c ∈ (s.groups.get g).corners, (pointAt s c.landed).quality ≠ .good) :
    Alerted (·.opAborted) (departGroup g s) := by
  have hsettle := settling_alerted reason_opAborted (fun _ => True)
  have hlink : ∀ u : State, u.ops.get g = some r → Alerted (·.opAborted) (endOperation g (.aborted .link) u) :=
    fun u hu => endOperation_alerted reason_opAborted rfl (fun _ => rfl) hu
  unfold departGroup
  rw [hop]
  dsimp only
  cases hlanding : r.landingRequired with
  | false => exact evaluate_settling hsettle trivial _ (hlink _ hop)
  | true =>
    have hcorner := hends.resolve_left (by simp [hlanding])
    rw [if_pos rfl]
    split
    · exact endOperation_settling hsettle trivial _ _
        (evaluate_lifts (s := { s with choices := s.choices + 1 }) hbound hop hlanding hcorner)
    · exact evaluate_settling hsettle trivial _ (hlink _ hop)

/-- A departure's operation ends with OP_ABORTED, by LINK or by LIFTED (R152, R155). -/
theorem leave_opAborted {k : Stn} {new : StationState} (habsent : new ≠ .absent) {cause : LastCause} {s : State}
    {g : Group} {r : OpRec} {p : Profile} (hgroup : groupAt s k = some g) (hop : s.ops.get g = some r)
    (hp : profileOf s k = some p) (hends : r.landingRequired = false ∨ ∃ c ∈ (s.groups.get g).corners,
      p.base ≤ c.landed ∧ c.landed < p.base + windowSize p ∧ c.landed < s.points.length) :
    Alerted (·.opAborted) (leave k new cause s) := by
  set u := leaveAlert (leftLoaded k s) (leaveStart k new cause s) with hu
  have hkeep : ∀ {P : State → Prop}, Inner P → P (leaveStart k new cause s) → P u := fun h hs => by
    rw [hu]
    unfold leaveAlert
    split
    · exact raiseAlert_keeps h.toPanel _ _ hs
    · exact hs
  have hgroups : u.groups = s.groups := by
    rw [hu]
    unfold leaveAlert
    split
    · rw [(raiseAlert_frame _ _).2.2.2, leaveStart_state]
    · rw [leaveStart_state]
  have hops : u.ops = s.ops := by
    rw [hu]
    unfold leaveAlert
    split
    · rw [(raiseAlert_frame _ _).1, leaveStart_state]
    · rw [leaveStart_state]
  have hbound : (u.groups.get g).bound = true := by
    rw [hgroups]
    exact (groupAt_some hgroup).1
  refine leave_after_group (settling_alerted reason_opAborted (fun _ => True)) hgroup trivial (fun _ _ => trivial)
    (fun _ h => h) (fun _ hnew _ => absurd hnew habsent) (departGroup_aborts hbound (by rw [hops, hop])
      (hends.imp_right ?_))
  rintro ⟨c, hc, hlow, hhigh, hwhole⟩
  refine ⟨c, by rwa [hgroups], ?_⟩
  have hstale : (pointAt u c.landed).quality = .stale := by
    refine hkeep (inner_quality c.landed (by simp) (by simp)) ?_
    rw [leaveStart_pointAt, hp]
    dsimp only
    rw [if_pos ⟨hlow, hhigh, hwhole⟩, (flagged_fields _ _).2.1, leftPoint_quality]
    simp [habsent]
  rw [hstale]
  simp

/-! ### The cab service's copy of a departing station's group -/

theorem mirrorFold_copies (ks : List Nat) : ∀ s : State, (ks.foldl mirrorOne s).cab.copies = s.cab.copies := by
  induction ks with
  | nil => exact fun _ => rfl
  | cons k ks ih =>
    intro s
    have hone : (mirrorOne s k).cab.copies = s.cab.copies := by rw [mirrorOne_cab]
    exact (ih _).trans hone

theorem mirror_copies (s : State) : (mirror s).cab.copies = s.cab.copies := by
  unfold mirror
  exact mirrorFold_copies ownedOutputs s

theorem handCopy_copies (g : Group) (f : GroupCopy → GroupCopy) (s : State) :
    (handCopy g f s).cab.copies = s.cab.copies.set g (f (s.cab.copies.get g)) := by
  unfold handCopy
  dsimp only
  split
  · rw [mirror_copies]
    rfl
  · rfl

theorem raiseAlert_copies (r : AlertReason) (s : State) : (raiseAlert r s).cab.copies = s.cab.copies := by
  unfold raiseAlert
  dsimp only
  split
  · rw [mirror_copies, alertNotice_cab]
    rfl
  · rw [mirror_copies]
    rfl
  · rfl

/-- A copy that shows a group bound to a station. -/
def ShownBound (k : Stn) (c : GroupCopy) : Prop := c.bound = true ∧ c.station = some k

theorem publishGroup_shows {k : Stn} {g : Group} (before : GroupRec) {s : State}
    (hrecord : BoundTo g true (some k) s) : ShownBound k ((publishGroup before g s).cab.copies.get g) := by
  have hkeep : ∀ u : State, u.groups = s.groups → ShownBound k ((handGroup g u).cab.copies.get g) := fun u hu => by
    unfold handGroup
    dsimp only
    rw [handCopy_copies, ByGroup.get_set_self, hu]
    exact hrecord
  unfold publishGroup
  dsimp only
  split
  · exact hkeep _ (drivePermit_frame _ _).2.2
  · exact hkeep _ (by rw [groupNotice, notice_groups, (drivePermit_frame _ _).2.2])

theorem publishGroup_copies_other {g g' : Group} (hg : g ≠ g') (before : GroupRec) (s : State) :
    (publishGroup before g' s).cab.copies.get g = s.cab.copies.get g := by
  unfold publishGroup
  dsimp only
  rw [handGroup, handCopy_copies, ByGroup.get_set_ne _ _ hg]
  split
  · rw [drivePermit_cab]
  · rw [groupNotice, notice_cab, drivePermit_cab]

/-- A group bound to a station, and shown so. -/
def Shown (k : Stn) (g : Group) (t : State) : Prop :=
  BoundTo g true (some k) t ∧ ShownBound k (t.cab.copies.get g)

theorem evaluateFrom_shows {k : Stn} {g : Group} (before : GroupRec) {s : State} (h : BoundTo g true (some k) s) :
    Shown k g (evaluateFrom before g s) := by
  refine ⟨(settling_boundTo g true (some k) (fun _ => True)).evaluated _ _ _ trivial h, ?_⟩
  unfold evaluateFrom
  rw [if_pos h.1]
  have hpublished := publishGroup_shows (k := k) (g := g) before (s := updGroup g (fun _ => evalRecord s g) s) (by
    unfold BoundTo
    rw [updGroup_groups, ByGroup.get_set_self]
    exact h)
  dsimp only
  split
  · rw [raiseAlert_copies]
    exact hpublished
  · exact hpublished

theorem settling_shown (k : Stn) (g : Group) (G : Group → Prop) : Settling G (Shown k g) := by
  have hbound := settling_boundTo g true (some k) G
  exact {
    notice := fun kind payload s h => ⟨hbound.notice _ _ _ h.1, by rw [notice_cab]; exact h.2⟩
    alert := fun r s h => ⟨hbound.alert _ _ h.1, by rw [raiseAlert_copies]; exact h.2⟩
    copy := fun g' f s hf h => ⟨hbound.copy _ _ _ hf h.1, by
      rw [handCopy_copies, ByGroup.get_set]
      split
      · rename_i hg
        subst hg
        obtain ⟨hb, hst⟩ := hf (s.cab.copies.get g)
        exact ⟨hb.trans h.2.1, hst.trans h.2.2⟩
      · exact h.2⟩
    report := fun new s h => ⟨hbound.report _ _ h.1, by
      unfold reportCabStation
      dsimp only
      split
      · rw [offerCabWrites_cab]
        exact h.2
      · exact h.2⟩
    evaluated := fun before g' s hg' h => by
      by_cases hg : g = g'
      · subst hg
        exact evaluateFrom_shows before h.1
      · refine ⟨hbound.evaluated _ _ _ hg' h.1, ?_⟩
        have hpublished := publishGroup_copies_other hg before (updGroup g' (fun _ => evalRecord s g') s)
        unfold evaluateFrom
        split
        · dsimp only
          split
          · rw [raiseAlert_copies, hpublished]
            exact h.2
          · rw [hpublished]
            exact h.2
        · exact h.2
    release := fun r s h => ⟨hbound.release _ _ h.1, by rw [releaseDrive_cab]; exact h.2⟩
    idle := fun g' s hg' h => ⟨hbound.idle _ _ hg' h.1, h.2⟩
    stored := fun g' src r s hr h => ⟨hbound.stored _ _ _ _ hr h.1, by
      cases src with
      | remote => exact h.2
      | cab =>
        show ShownBound k ((handCopy g' _ _).cab.copies.get g)
        rw [handCopy_copies, ByGroup.get_set]
        split
        · rename_i hg
          subst hg
          exact h.2
        · exact h.2⟩
    choices := fun n s h => h
    unmark := fun g' src s hg' h => h
    unown := fun g' s hg' h => h }

theorem evaluate_shows {k : Stn} {g : Group} {s : State} (h : BoundTo g true (some k) s) :
    Shown k g (evaluate g s) := by
  unfold evaluate
  rw [if_pos h.1]
  exact handToEngine_settling (settling_shown k g (fun _ => True)) trivial _ (evaluateFrom_shows _ h)

theorem departGroup_shows {k : Stn} {g : Group} {s : State} (h : BoundTo g true (some k) s) :
    Shown k g (departGroup g s) := by
  have hbound := settling_boundTo g true (some k) (fun _ => True)
  have hshown := settling_shown k g (fun _ => True)
  unfold departGroup
  split
  · split
    · dsimp only
      split
      · exact endOperation_settling hshown trivial _ _ (evaluate_shows (hbound.choices _ _ h))
      · exact evaluate_shows (endOperation_settling hbound trivial _ _ (hbound.choices _ _ h))
    · exact evaluate_shows (endOperation_settling hbound trivial _ _ h)
  · exact evaluate_shows h

/-- A FAULT of an S-line station that carries a group raises STATION_FAULT (R174). -/
theorem leave_stationFault {k : Stn} (hline : lineOf k = .s) {cause : LastCause} {s : State} {g : Group}
    (hgroup : groupAt s k = some g) : Alerted (·.stationFault) (leave k .fault cause s) := by
  have hstart : BoundTo g true (some k) (leaveAlert (leftLoaded k s) (leaveStart k .fault cause s)) := by
    refine leaveAlert_settling (settling_boundTo g _ _ (fun _ => True)) _ _ ?_
    rw [leaveStart_state]
    exact groupAt_some hgroup
  have hshown := departGroup_shows hstart
  rw [leave_eq, hgroup]
  unfold leaveReport
  rw [hline]
  dsimp only
  rw [if_pos rfl]
  set u := leaveUnbind .fault (some g) (updStation k (dropProfile .fault)
    (leaveGroup (some g) (leaveAlert (leftLoaded k s) (leaveStart k .fault cause s)))) with hu
  have hcopy : ShownBound k (u.cab.copies.get g) := hshown.2
  have htest : (lineOf k = .s && ((u.cab.copies.a.bound && u.cab.copies.a.station == some k) ||
      (u.cab.copies.b.bound && u.cab.copies.b.station == some k))) = true := by
    obtain ⟨hb, hst⟩ := hcopy
    cases g with
    | a =>
      have hb' : u.cab.copies.a.bound = true := hb
      have hst' : u.cab.copies.a.station = some k := hst
      simp [hline, hb', hst']
    | b =>
      have hb' : u.cab.copies.b.bound = true := hb
      have hst' : u.cab.copies.b.station = some k := hst
      simp [hline, hb', hst']
  unfold stationFault
  dsimp only
  rw [if_pos htest]
  exact raiseAlert_alerted (fun _ => rfl) _

end Sys2Proof.Proofs
end

section
/-! How a slot's bytes are judged (R14 to R16, R208), and what a missed SCAN does (R31 to R34). -/

namespace Sys2Proof.Proofs

open Sys2Proof Sys2Proof.Machine Sys2Proof.Safety Sys2Proof.Laws

/-! ### Numbered lists -/

theorem map_snd_indexed {α : Type} (l : List α) : ∀ n, (indexed n l).map (·.2) = l := by
  induction l with
  | nil => exact fun _ => rfl
  | cons a l ih => exact fun n => congrArg (a :: ·) (ih (n + 1))

theorem mem_indexed_lt {α : Type} {l : List α} : ∀ {n : Nat} {w : Nat × α}, w ∈ indexed n l →
    n ≤ w.1 ∧ w.1 < n + l.length := by
  induction l with
  | nil => exact fun h => absurd h List.not_mem_nil
  | cons a l ih =>
    intro n w h
    rcases List.mem_cons.1 h with rfl | h
    · simp
    · have := ih h
      simp only [List.length_cons]
      omega

theorem indexed_length {α : Type} (l : List α) : ∀ n, (indexed n l).length = l.length := by
  induction l with
  | nil => exact fun _ => rfl
  | cons a l ih => exact fun n => congrArg (· + 1) (ih (n + 1))

theorem indexed_append {α : Type} (l l' : List α) :
    ∀ n, indexed n (l ++ l') = indexed n l ++ indexed (n + l.length) l' := by
  induction l with
  | nil => exact fun _ => rfl
  | cons a l ih =>
    intro n
    show (n, a) :: indexed (n + 1) (l ++ l') = _
    rw [ih, List.length_cons, Nat.add_right_comm, Nat.add_assoc]
    rfl

/-! ### The answer among the bytes of a slot (R14) -/

section Received

variable {x : Slot} {noise : List RxByte}

/-- A byte that does not begin an answer: another value, or a start outside the window. -/
def Stray (x : Slot) (b : RxByte) : Prop := b.value ≠ 165 ∨ b.start < windowOpens x ∨ windowCloses x < b.start

theorem beginsAnswer_of_stray {b : RxByte} (h : Stray x b) : beginsAnswer x b = false := by
  unfold beginsAnswer syncByte
  rcases h with h | h | h
  · rw [beq_eq_false_iff_ne.2 h]
    rfl
  · simp [Nat.not_le.2 h]
  · simp [Nat.not_le.2 h]

theorem beginsAnswer_of_sync {b : RxByte} (hvalue : b.value = 165) (hopen : windowOpens x ≤ b.start)
    (hclose : b.start ≤ windowCloses x) : beginsAnswer x b = true := by
  simp [beginsAnswer, syncByte, hvalue, hopen, hclose]

/-- The bytes read as an answer, from the one that begins it: those that arrive by the slot's end decide (R14). -/
def receiveFrom (x : Slot) (answer : List RxByte) : Except MissReason Answer :=
  match answer.takeWhile (arrives x) with
  | sync :: addr :: kind :: len :: rest =>
    let n := len.value.toNat
    if maxFieldPayload < n then .error .check
    else if rest.length < n + 2 then .error .check
    else
      let body := addr :: kind :: len :: rest.take n
      let check := (rest.drop n).take 2
      if (sync :: body ++ check).any (fun b => !b.stopOk) then .error .check
      else if checkBytes (body.map (·.value)) != check.map (·.value) then .error .check
      else .ok ⟨addr.value, kind.value, (rest.take n).map (·.value)⟩
  | _ => .error .check

theorem receive_timeout (hnoise : ∀ b ∈ noise, Stray x b) : receive x noise = .error .timeout := by
  have hdrop : noise.dropWhile (fun b => !beginsAnswer x b) = [] :=
    List.dropWhile_eq_nil_iff.2 fun b hb => by simp [beginsAnswer_of_stray (hnoise b hb)]
  unfold receive
  rw [hdrop]

theorem receive_answer (hnoise : ∀ b ∈ noise, Stray x b) {sync : RxByte} (hsync : beginsAnswer x sync = true)
    (rest : List RxByte) : receive x (noise ++ sync :: rest) = receiveFrom x (sync :: rest) := by
  have hdrop : (noise ++ sync :: rest).dropWhile (fun b => !beginsAnswer x b) = sync :: rest := by
    rw [List.dropWhile_append_of_pos fun b hb => by simp [beginsAnswer_of_stray (hnoise b hb)],
      List.dropWhile_cons_of_neg (by simp [hsync])]
  unfold receive
  rw [hdrop]
  rfl

variable {sync addr kind len : RxByte} {payload check after : List RxByte}

/-- An answer whose bytes all arrive is read by its length, its stop bits and its check (R15). -/
theorem receiveFrom_whole (hpayload : payload.length = len.value.toNat) (hcheck : check.length = 2)
    (harrive : ∀ b ∈ sync :: addr :: kind :: len :: (payload ++ check), arrives x b = true) :
    receiveFrom x ((sync :: addr :: kind :: len :: (payload ++ check)) ++ after) =
      if 64 < len.value.toNat ∨ (∃ b ∈ sync :: addr :: kind :: len :: (payload ++ check), b.stopOk = false) ∨
          checkBytes ((addr :: kind :: len :: payload).map (·.value)) ≠ check.map (·.value) then .error .check
      else .ok ⟨addr.value, kind.value, payload.map (·.value)⟩ := by
  have htake : ((sync :: addr :: kind :: len :: (payload ++ check)) ++ after).takeWhile (arrives x) =
      sync :: addr :: kind :: len :: (payload ++ (check ++ after.takeWhile (arrives x))) := by
    rw [List.takeWhile_append_of_pos harrive]
    simp
  have hbody : (payload ++ (check ++ after.takeWhile (arrives x))).take len.value.toNat = payload :=
    List.take_left' hpayload
  have hrest : ((payload ++ (check ++ after.takeWhile (arrives x))).drop len.value.toNat).take 2 = check := by
    rw [List.drop_left' hpayload, List.take_left' hcheck]
  have hroom : ¬(payload ++ (check ++ after.takeWhile (arrives x))).length < len.value.toNat + 2 := by
    simp only [List.length_append]
    omega
  unfold receiveFrom
  rw [htake]
  dsimp only
  rw [hbody, hrest, if_neg hroom]
  by_cases hlen : 64 < len.value.toNat
  · rw [if_pos (by exact hlen), if_pos (Or.inl hlen)]
  · rw [if_neg (by exact hlen)]
    by_cases hstop : ∃ b ∈ sync :: addr :: kind :: len :: (payload ++ check), b.stopOk = false
    · rw [if_pos (Or.inr (Or.inl hstop)), if_pos]
      obtain ⟨b, hb, hbad⟩ := hstop
      exact List.any_eq_true.2 ⟨b, by simpa using hb, by simp [hbad]⟩
    · rw [if_neg]
      · by_cases hsum : checkBytes ((addr :: kind :: len :: payload).map (·.value)) = check.map (·.value)
        · rw [if_neg (by simpa using hsum), if_neg]
          rintro (h | h | h)
          exacts [hlen h, hstop h, h hsum]
        · rw [if_pos (by simpa using hsum), if_pos (Or.inr (Or.inr hsum))]
      · intro hany
        obtain ⟨b, hb, hbad⟩ := List.any_eq_true.1 hany
        exact hstop ⟨b, by simpa using hb, by simpa using hbad⟩

/-- An answer cut off by the slot's end is a CHECK miss, whatever its length byte says (R14, R15). -/
theorem receiveFrom_cut (hpayload : payload.length = len.value.toNat) (hcheck : check.length = 2)
    (hcut : ∃ b ∈ sync :: addr :: kind :: len :: (payload ++ check), arrives x b = false) :
    receiveFrom x ((sync :: addr :: kind :: len :: (payload ++ check)) ++ after) = .error .check := by
  set answer := sync :: addr :: kind :: len :: (payload ++ check) with hanswer
  have hshort : (answer.takeWhile (arrives x)).length ≠ answer.length := fun heq => by
    obtain ⟨b, hb, hlate⟩ := hcut
    have hall := (List.takeWhile_prefix (arrives x) (l := answer)).eq_of_length heq
    rw [List.takeWhile_eq_self_iff.1 hall b hb] at hlate
    cases hlate
  have htake : (answer ++ after).takeWhile (arrives x) = answer.takeWhile (arrives x) := by
    rw [List.takeWhile_append, if_neg hshort]
  have hlength : (answer.takeWhile (arrives x)).length < len.value.toNat + 6 := by
    have hle := (List.takeWhile_prefix (arrives x) (l := answer)).length_le
    have htotal : answer.length = len.value.toNat + 6 := by
      simp only [hanswer, List.length_cons, List.length_append]
      omega
    omega
  obtain ⟨more, hmore⟩ := List.takeWhile_prefix (arrives x) (l := answer)
  unfold receiveFrom
  rw [htake]
  rcases htw : answer.takeWhile (arrives x) with _ | ⟨b0, _ | ⟨b1, _ | ⟨b2, _ | ⟨b3, rest⟩⟩⟩⟩
  case cons.cons.cons.cons =>
    rw [htw, hanswer] at hmore
    obtain ⟨-, -, -, rfl, -⟩ : b0 = sync ∧ b1 = addr ∧ b2 = kind ∧ b3 = len ∧ rest ++ more = payload ++ check := by
      simpa using hmore
    rw [htw] at hlength
    simp only [List.length_cons] at hlength
    dsimp only
    split
    · rfl
    · rw [if_pos (by omega)]
  all_goals rfl

end Received

/-! ### The verdict (R15, R208) -/

section Judged

variable {α : Type} {x : Slot} {kind : FrameKind} {read : List Byte → Option α} {rx : List RxByte}

theorem judge_of_error {r : MissReason} (h : receive x rx = .error r) : judge x kind read rx = .error r := by
  unfold judge
  rw [h]

theorem judge_of_ok {a : Answer} (h : receive x rx = .ok a) : judge x kind read rx =
    if a.addressByte ≠ byteOf (addressOf x.stn + 128) ∨ a.kindByte ≠ frameKindCode kind then .error .mismatch
    else match read a.payload with
      | some v => .ok v
      | none => .error .mismatch := by
  unfold judge addressed
  rw [h]
  dsimp only
  by_cases haddr : a.addressByte = byteOf (addressOf x.stn + 128)
  · by_cases hkind : a.kindByte = frameKindCode kind
    · exact (if_pos (by simp [haddr, hkind])).trans (if_neg (by simp [haddr, hkind])).symm
    · simp [haddr, hkind]
  · simp [haddr]

/-- The frame of an answer, as its bytes stand on the line. -/
theorem fieldFrame_answer (address : Nat) (payload : List Byte) :
    fieldFrame true address kind payload = syncByte :: byteOf (address + 128) :: frameKindCode kind ::
      byteOf payload.length :: (payload ++ checkBytes (byteOf (address + 128) :: frameKindCode kind ::
        byteOf payload.length :: payload)) := by
  simp [fieldFrame]

/-- An answer of a length that its bytes bear out: cut off, unsound, misaddressed, or read. -/
theorem judge_answer {noise after : List RxByte} (hnoise : ∀ b ∈ noise, Stray x b) {sync : RxByte}
    (hsync : beginsAnswer x sync = true) {addr kindByte len : RxByte} {payload check : List RxByte}
    (hpayload : payload.length = len.value.toNat) (hcheck : check.length = 2)
    (harrive : ∀ b ∈ sync :: addr :: kindByte :: len :: (payload ++ check), arrives x b = true) :
    judge x kind read (noise ++ sync :: (addr :: kindByte :: len :: (payload ++ check)) ++ after) =
      if 64 < len.value.toNat ∨ (∃ b ∈ sync :: addr :: kindByte :: len :: (payload ++ check), b.stopOk = false) ∨
          checkBytes ((addr :: kindByte :: len :: payload).map (·.value)) ≠ check.map (·.value) then .error .check
      else if addr.value ≠ byteOf (addressOf x.stn + 128) ∨ kindByte.value ≠ frameKindCode kind then .error .mismatch
      else match read (payload.map (·.value)) with
        | some v => .ok v
        | none => .error .mismatch := by
  have hreceive := (receive_answer hnoise hsync ((addr :: kindByte :: len :: (payload ++ check)) ++ after)).trans
    (receiveFrom_whole (after := after) hpayload hcheck harrive)
  rw [List.append_assoc]
  split
  · next hbad =>
    rw [if_pos hbad] at hreceive
    exact judge_of_error hreceive
  · next hsound =>
    rw [if_neg hsound] at hreceive
    exact judge_of_ok hreceive

theorem judge_cut {noise after : List RxByte} (hnoise : ∀ b ∈ noise, Stray x b) {sync : RxByte}
    (hsync : beginsAnswer x sync = true) {addr kindByte len : RxByte} {payload check : List RxByte}
    (hpayload : payload.length = len.value.toNat) (hcheck : check.length = 2)
    (hcut : ∃ b ∈ sync :: addr :: kindByte :: len :: (payload ++ check), arrives x b = false) :
    judge x kind read (noise ++ sync :: (addr :: kindByte :: len :: (payload ++ check)) ++ after) =
      .error .check := by
  rw [List.append_assoc]
  exact judge_of_error ((receive_answer hnoise hsync _).trans (receiveFrom_cut (after := after) hpayload hcheck hcut))

/-- A byte of a frame whose bytes follow one another from a start on. -/
def sentByte (x : Slot) (start : Nat) (w : Nat × Byte) : RxByte := ⟨start + w.1 * byteTime x, w.2, true⟩

/-- The bytes of an answer's frame, sent one byte time apart and whole by the slot's end, are read back (R207). -/
theorem judge_frame {noise after : List RxByte} (hnoise : ∀ b ∈ noise, Stray x b) {sync : RxByte}
    (hsync : beginsAnswer x sync = true) {answer : List RxByte} {payload : List Byte} (hsize : payload.length ≤ 64)
    (hframe : sync :: answer = (indexed 0 (fieldFrame true (addressOf x.stn) kind payload)).map
      (sentByte x sync.start))
    (hends : sync.start + (6 + payload.length) * byteTime x ≤ slotEnds x) :
    judge x kind read (noise ++ sync :: answer ++ after) =
      match read payload with
      | some v => .ok v
      | none => .error .mismatch := by
  have hlen : (byteOf payload.length).toNat = payload.length := by
    simp only [byteOf, BitVec.toNat_ofNat]
    omega
  set check := checkBytes (byteOf (addressOf x.stn + 128) :: frameKindCode kind :: byteOf payload.length :: payload)
    with hcheck
  have hvalues : ∀ (n : Nat) (l : List Byte), ((indexed n l).map (sentByte x sync.start)).map (·.value) = l :=
    fun n l => by
      rw [List.map_map]
      exact map_snd_indexed l n
  have hsent : ∀ b ∈ sync :: answer, arrives x b = true ∧ b.stopOk = true := fun b hb => by
    rw [hframe] at hb
    obtain ⟨w, hw, rfl⟩ := List.mem_map.1 hb
    have hplace := (mem_indexed_lt hw).2
    have hwhole : (fieldFrame true (addressOf x.stn) kind payload).length = 6 + payload.length := by
      simp [fieldFrame, checkBytes, be16]
      omega
    rw [hwhole] at hplace
    have hmul : (w.1 + 1) * byteTime x ≤ (6 + payload.length) * byteTime x :=
      Nat.mul_le_mul_right _ (by omega)
    rw [Nat.succ_mul w.1] at hmul
    exact ⟨decide_eq_true (show sync.start + w.1 * byteTime x + byteTime x ≤ slotEnds x by omega), rfl⟩
  rw [fieldFrame_answer, ← hcheck] at hframe
  have hanswer : answer = sentByte x sync.start (1, byteOf (addressOf x.stn + 128)) ::
      sentByte x sync.start (2, frameKindCode kind) :: sentByte x sync.start (3, byteOf payload.length) ::
        ((indexed 4 payload).map (sentByte x sync.start) ++
          (indexed (4 + payload.length) check).map (sentByte x sync.start)) := by
    rw [← List.map_append, ← indexed_append]
    exact (List.cons.inj hframe).2
  subst hanswer
  rw [judge_answer hnoise hsync (by rw [List.length_map, indexed_length]; exact hlen.symm)
    (by rw [List.length_map, indexed_length]; rfl) (fun b hb => (hsent b hb).1), if_neg, if_neg, hvalues]
  · rintro (h | h) <;> exact h rfl
  · rintro (h | ⟨b, hb, h⟩ | h)
    · rw [show (sentByte x sync.start (3, byteOf payload.length)).value = byteOf payload.length from rfl, hlen] at h
      omega
    · rw [(hsent b hb).2] at h
      cases h
    · refine h ?_
      rw [hvalues]
      simp only [List.map_cons, hvalues]
      rfl

end Judged

/-! ### The payload of a SCAN_ANSWER (R8) -/

theorem wordsOf_bytes (ws : List Word) : wordsOf (ws.flatMap fun w => be16 w.toNat) = ws := by
  induction ws with
  | nil => rfl
  | cons w ws ih =>
    show BitVec.ofNat 16 (u16 (byteOf (w.toNat / 256)) (byteOf w.toNat)) ::
      wordsOf (ws.flatMap fun w => be16 w.toNat) = _
    rw [ih, u16_be16 w.isLt, BitVec.ofNat_toNat, BitVec.setWidth_eq]

theorem words_length (ws : List Word) : (ws.flatMap fun w => be16 w.toNat).length = 2 * ws.length := by
  induction ws with
  | nil => rfl
  | cons w ws ih =>
    rw [List.flatMap_cons, List.length_append, ih, List.length_cons]
    simp only [be16, List.length_cons, List.length_nil]
    omega

theorem readScan_bytes (n : Nat) (echo status : Byte) (ws : List Word) :
    readScan n (echo :: status :: ws.flatMap (fun w => be16 w.toNat)) =
      if ws.length = n ∧ echo.toNat ≤ 15 then some ⟨BitVec.ofNat 4 echo.toNat, status.getLsbD 0, ws⟩ else none := by
  have hcount : 2 * ws.length = 2 * n ↔ ws.length = n := by omega
  simp only [readScan, words_length, wordsOf_bytes, hcount]

/-! ### A missed SCAN (R31 to R34) -/

section Misses

variable {s : State} {k : Stn} {x : Slot} {rx : List RxByte} {why : MissReason}

theorem scanVerdict_first (hslot : (s.lines.get (lineOf k)).slot = some x) (hkind : x.kind = .station k)
    (hfirst : x.judged = false) (hvoid : x.void = false) (hscanned : isScanned (s.stations.get k).state = true) :
    scanVerdict (lineOf k) rx s =
      match judge x .scanAnswer (readScan (inputCount s k)) rx with
      | .ok a => scanGood k a (slotJudged (lineOf k) x s)
      | .error r => scanMissed k r (slotJudged (lineOf k) x s) := by
  obtain ⟨kind, stn, request, settings, length, judged, void⟩ := x
  subst hkind
  have hscanned' : isScanned (stateOf (slotJudged (lineOf k)
      ⟨.station k, stn, request, settings, length, judged, void⟩ s) k) = true := hscanned
  have hcount : inputCount (slotJudged (lineOf k) ⟨.station k, stn, request, settings, length, judged, void⟩ s) k =
      inputCount s k := rfl
  unfold scanVerdict
  rw [hslot]
  dsimp only
  rw [withSlot_first hslot hfirst, hscanned', hcount]
  dsimp only at hvoid ⊢
  subst hvoid
  rfl

theorem scanMiss_row {l : Line} (hheld : s.held = false) :
    exec (.scanMiss l rx) s = .next (settleChange (scanVerdict l rx s)) :=
  congrArg Host.Outcome.next (unlessHeld_of_high hheld)

/-- The state that a missed SCAN leaves before the limit is looked at: its reason noted. -/
def missNoted (k : Stn) (why : MissReason) (s : State) : State :=
  updStation k (fun r => { r with lastMiss := some why }) s

theorem scanMissed_below (h : (s.stations.get k).misses + 1 < (missRule s k).1) :
    scanMissed k why s = degrade k ((s.stations.get k).misses + 1) (missNoted k why s) := by
  have hmisses : ((missNoted k why s).stations.get k).misses = (s.stations.get k).misses := by
    rw [missNoted, updStation, ByStn.get_set_self]
  have hrule : missRule (missNoted k why s) k = missRule s k := by
    unfold missRule
    rw [show profileOf (missNoted k why s) k = profileOf s k from (sameStation_updStation ⟨rfl, rfl⟩).profile]
  unfold scanMissed
  rw [← missNoted]
  dsimp only
  rw [hrule, hmisses, if_pos h]

/-- What a missed SCAN does at the limit, policy by policy (R32, R33). -/
def limitReached (policy : Policy) (k : Stn) (limit : Nat) (s : State) : State :=
  match policy with
  | .latch => leave k .fault .missLimit (updStation k (fun r => { r with misses := limit }) s)
  | .retry => leave k .holdoff .missLimit (updStation k (fun r => { r with misses := limit }) s)
  | .report => noteLimit k (degrade k limit s)
  | .ignore => degrade k limit s

theorem scanMissed_atLimit (h : (missRule s k).1 ≤ (s.stations.get k).misses + 1) :
    scanMissed k why s = limitReached (missRule s k).2 k (missRule s k).1 (missNoted k why s) := by
  have hmisses : ((missNoted k why s).stations.get k).misses = (s.stations.get k).misses := by
    rw [missNoted, updStation, ByStn.get_set_self]
  have hrule : missRule (missNoted k why s) k = missRule s k := by
    unfold missRule
    rw [show profileOf (missNoted k why s) k = profileOf s k from (sameStation_updStation ⟨rfl, rfl⟩).profile]
  unfold scanMissed
  rw [← missNoted]
  dsimp only
  rw [hrule, hmisses, if_neg (Nat.not_lt.2 h)]
  rfl

end Misses

end Sys2Proof.Proofs
end

section
/-! A missed SCAN, policy by policy (R31 to R34, R118, R155, R174), and what a slot's verdict says of it. -/

namespace Sys2Proof.Proofs

open Sys2Proof Sys2Proof.Machine Sys2Proof.Safety Sys2Proof.Laws

section Records

variable {s : State} {k : Stn} {x : Slot} {why : MissReason}

/-- A report of a record's move leaves what notices, evaluations and the cab service leave. -/
theorem reportScanned_inner {P : State → Prop} (h : Inner P) (k : Stn) (old : StationState) (s : State) (hs : P s) :
    P (reportScanned k old s) := by
  have hnoticed : P (if (isOnline old && isOnline (stateOf s k)) = true then s else stationNotice k s) := by
    split
    · exact hs
    · exact h.notice _ _ _ hs
  unfold reportScanned
  dsimp only
  generalize (if (isOnline old && isOnline (stateOf s k)) = true then s else stationNotice k s) = u at hnoticed ⊢
  split
  · exact hs
  · split
    · split
      · exact evaluate_keeps h.toLocal _ _ hnoticed
      · exact hnoticed
    · exact reportCabStation_panel h.toPanel _ _ hnoticed

theorem degrade_stations (k : Stn) (m : Nat) (s : State) : (degrade k m s).stations =
    s.stations.set k { s.stations.get k with state := .degraded, misses := m } := by
  unfold degrade
  exact reportScanned_inner (inner_stations _) _ _ _ rfl

theorem noteLimit_record (k : Stn) (s : State) :
    (∀ k', k' ≠ k → (noteLimit k s).stations.get k' = s.stations.get k') ∧
    ((noteLimit k s).stations.get k).state = (s.stations.get k).state ∧
    ((noteLimit k s).stations.get k).limitNoted = true ∧
    ((noteLimit k s).stations.get k).misses = (s.stations.get k).misses ∧
    ((noteLimit k s).stations.get k).lastMiss = (s.stations.get k).lastMiss := by
  unfold noteLimit
  split
  · next hnoted => exact ⟨fun _ _ => rfl, rfl, hnoted, rfl, rfl⟩
  · have hstations : (stationNotice k (updStation k
        (fun r => { r with limitNoted := true, lastCause := .missLimit }) s)).stations =
        s.stations.set k { s.stations.get k with limitNoted := true, lastCause := .missLimit } := by
      rw [stationNotice_state]
      rfl
    rw [hstations]
    exact ⟨fun k' hk' => ByStn.get_set_ne _ _ hk', by simp⟩

/-- The record at a miss, its reason noted. -/
theorem missNoted_record (k : Stn) (why : MissReason) (s : State) :
    (missNoted k why s).stations = s.stations.set k { s.stations.get k with lastMiss := some why } := rfl

/-- The state that a departure at the limit starts from. -/
def atLimit (k : Stn) (x : Slot) (why : MissReason) (s : State) : State :=
  updStation k (fun r => { r with misses := (missRule s k).1 }) (missNoted k why (slotJudged (lineOf k) x s))

theorem atLimit_stations : (atLimit k x why s).stations =
    s.stations.set k { s.stations.get k with lastMiss := some why, misses := (missRule s k).1 } := by
  show (s.stations.set k _).set k _ = _
  simp only [missNoted_record, ByStn.get_set_self, ByStn.set_set]
  rfl

theorem atLimit_same : SameStation k s (atLimit k x why s) := by
  have hjudged : SameStation k s (slotJudged (lineOf k) x s) := ⟨rfl, rfl, rfl, rfl, fun _ _ => rfl⟩
  exact (hjudged.trans (sameStation_updStation ⟨rfl, rfl⟩)).trans (sameStation_updStation ⟨rfl, rfl⟩)

/-- The alert after a departure at the limit (R118, R155). -/
theorem limit_alerts {new : StationState} (hnew : new ≠ .absent) {g : Group} (hg : groupAt s k = some g) :
    (isOnline (s.stations.get k).state = true → (s.groups.get g).lock = .allLocked →
      (s.groups.get g).landed ≠ .allLanded →
      Alerted (·.linkLostLoaded) (leave k new .missLimit (atLimit k x why s))) ∧
    (∀ r p, s.ops.get g = some r → profileOf s k = some p →
      (r.landingRequired = false ∨ ∃ c ∈ (s.groups.get g).corners,
        p.base ≤ c.landed ∧ c.landed < p.base + windowSize p ∧ c.landed < s.points.length) →
      Alerted (·.opAborted) (leave k new .missLimit (atLimit k x why s))) := by
  have hgroup : groupAt (atLimit k x why s) k = some g := hg
  refine ⟨fun honline hlock hlanded => leave_linkLostLoaded hnew ?_, fun r p hop hp hends =>
    leave_opAborted hnew hgroup hop (atLimit_same.profile.trans hp) hends⟩
  have honline' : isOnline (stateOf (atLimit k x why s) k) = true := by
    rw [stateOf, atLimit_stations, ByStn.get_set_self]
    exact honline
  rw [leftLoaded, honline', hgroup]
  show loadedNotLanded (s.groups.get g) = true
  simp [loadedNotLanded, hlock, hlanded]

/-- A departure at the limit (R32): the record, the others, and all that leaving the scanned states does. -/
theorem limit_leave {new : StationState} (hnew : isScanned new = false) (habsent : new ≠ .absent) :
    (∀ k', k' ≠ k → (leave k new .missLimit (atLimit k x why s)).stations.get k' = s.stations.get k') ∧
    ((leave k new .missLimit (atLimit k x why s)).stations.get k).state = new ∧
    ((leave k new .missLimit (atLimit k x why s)).stations.get k).lastCause = .missLimit ∧
    ((leave k new .missLimit (atLimit k x why s)).stations.get k).misses = (missRule s k).1 ∧
    ((leave k new .missLimit (atLimit k x why s)).stations.get k).lastMiss = some why ∧
    (new = .holdoff → ((leave k new .missLimit (atLimit k x why s)).stations.get k).holdoffExpiry =
      some (s.now + ((profileOf s k).map (·.retryMs)).getD 1000)) ∧
    Departed k false s (leave k new .missLimit (atLimit k x why s)) := by
  have hdeparted := leave_departs (k := k) hnew .missLimit (atLimit k x why s)
  rw [decide_eq_false habsent] at hdeparted
  refine ⟨fun k' hk' => ?_, ?_, ?_, ?_, ?_, fun hhold => ?_, atLimit_same.departed hdeparted⟩
  · rw [leave_stations, ByStn.get_set_ne _ _ hk', atLimit_stations, ByStn.get_set_ne _ _ hk']
  · rw [leave_stations, ByStn.get_set_self]
    rfl
  · rw [leave_stations, ByStn.get_set_self]
    rfl
  · rw [leave_stations, ByStn.get_set_self]
    show (if new = .absent then 0 else ((atLimit k x why s).stations.get k).misses) = _
    rw [if_neg habsent, atLimit_stations, ByStn.get_set_self]
  · rw [leave_stations, ByStn.get_set_self]
    show ((atLimit k x why s).stations.get k).lastMiss = _
    rw [atLimit_stations, ByStn.get_set_self]
  · rw [leave_stations, ByStn.get_set_self]
    show leaveExpiry k new (atLimit k x why s) = _
    rw [leaveExpiry, if_pos hhold, retryLength, atLimit_same.profile]
    rfl

end Records

theorem scanMissed_row {s : State} {k : Stn} {x : Slot} {rx : List RxByte} {why : MissReason}
    (hheld : s.held = false) (hchange : s.hub.change = none) (hslot : (s.lines.get (lineOf k)).slot = some x)
    (hkind : x.kind = .station k) (hfirst : x.judged = false) (hvoid : x.void = false)
    (hscanned : isScanned (s.stations.get k).state = true)
    (hjudge : judge x .scanAnswer (readScan (inputCount s k)) rx = .error why) :
    exec (.scanMiss (lineOf k) rx) s = .next (scanMissed k why (slotJudged (lineOf k) x s)) := by
  have hhub : (scanMissed k why (slotJudged (lineOf k) x s)).hub = s.hub :=
    scanMissed_keeps (link_hub s.hub) k why (slotJudged (lineOf k) x s) rfl
  rw [scanMiss_row hheld, scanVerdict_first hslot hkind hfirst hvoid hscanned, hjudge]
  dsimp only
  rw [settleChange_of_steady (by rw [hhub, hchange])]

/-- Settles O42. -/
theorem missedScanFollowsPolicy : Obligations.MissedScanFollowsPolicy := by
  refine ⟨fun α x kind read noise hnoise => ⟨judge_of_error (receive_timeout hnoise),
    fun sync answer after hvalue hopen hclose => ?_⟩, readScan_bytes,
    fun s k x rx why hheld hchange hslot hkind hstn hfirst hvoid hscanned hjudge => ?_⟩
  · have hsync := beginsAnswer_of_sync hvalue hopen hclose
    refine ⟨fun payload hsize hframe hends => judge_frame hnoise hsync hsize hframe hends,
      fun addr kindByte len payload check hanswer hpayload hcheck => ?_⟩
    subst hanswer
    refine ⟨fun ⟨b, hb, hlate⟩ => judge_cut hnoise hsync hpayload hcheck ⟨b, hb, decide_eq_false ?_⟩,
      fun harrive => judge_answer hnoise hsync hpayload hcheck fun b hb => decide_eq_true (harrive b hb)⟩
    exact Nat.not_le.2 hlate
  · refine ⟨_, scanMissed_row hheld hchange hslot hkind hfirst hvoid hscanned hjudge, ?_⟩
    have hrule : missRule (slotJudged (lineOf k) x s) k = missRule s k := rfl
    have hmisses : ((slotJudged (lineOf k) x s).stations.get k).misses = (s.stations.get k).misses := rfl
    by_cases hbelow : (s.stations.get k).misses + 1 < (missRule s k).1
    · have heq := scanMissed_below (why := why) (s := slotJudged (lineOf k) x s) hbelow
      rw [hmisses] at heq
      rw [heq, degrade_stations, missNoted_record, ByStn.set_set]
      refine ⟨fun k' hk' => ByStn.get_set_ne _ _ hk', fun _ => ?_, fun h => absurd hbelow (Nat.not_lt.2 h)⟩
      rw [ByStn.get_set_self, ByStn.get_set_self]
      rfl
    · have heq := scanMissed_atLimit (why := why) (s := slotJudged (lineOf k) x s) (Nat.not_lt.1 hbelow)
      rw [hrule] at heq
      rw [heq]
      have hdegraded : ∀ u : State, u.stations = (degrade k (missRule s k).1 (missNoted k why s)).stations →
          (∀ k', k' ≠ k → u.stations.get k' = s.stations.get k') ∧ (u.stations.get k).state = .degraded ∧
          (u.stations.get k).limitNoted = (s.stations.get k).limitNoted ∧
          (u.stations.get k).misses = (missRule s k).1 ∧ (u.stations.get k).lastMiss = some why := fun u hu => by
        rw [hu, degrade_stations, missNoted_record, ByStn.set_set]
        exact ⟨fun k' hk' => ByStn.get_set_ne _ _ hk', by simp⟩
      cases hpolicy : (missRule s k).2 with
      | latch =>
        obtain ⟨hothers, hstate, hcause, hm, hlast, -, hdeparted⟩ :=
          limit_leave (s := s) (k := k) (x := x) (why := why) (new := .fault) rfl (by decide)
        refine ⟨hothers, fun h => absurd h hbelow, fun _ => ⟨fun _ => ⟨hstate, hcause, hdeparted⟩,
          fun h => absurd h (by decide), fun h => absurd h (by decide), fun h => absurd h (by decide), hm, hlast,
          fun _ g hg => ?_⟩⟩
        obtain ⟨hloaded, haborts⟩ := limit_alerts (x := x) (why := why) (new := .fault) (by decide) hg
        exact ⟨hloaded, haborts, fun _ hline =>
          leave_stationFault hline (s := atLimit k x why s) (show groupAt (atLimit k x why s) k = some g from hg)⟩
      | retry =>
        obtain ⟨hothers, hstate, hcause, hm, hlast, hexpiry, hdeparted⟩ :=
          limit_leave (s := s) (k := k) (x := x) (why := why) (new := .holdoff) rfl (by decide)
        refine ⟨hothers, fun h => absurd h hbelow, fun _ => ⟨fun h => absurd h (by decide),
          fun _ => ⟨hstate, hcause, hexpiry rfl, hdeparted⟩, fun h => absurd h (by decide),
          fun h => absurd h (by decide), hm, hlast, fun _ g hg => ?_⟩⟩
        obtain ⟨hloaded, haborts⟩ := limit_alerts (x := x) (why := why) (new := .holdoff) (by decide) hg
        exact ⟨hloaded, haborts, fun h => absurd h (by decide)⟩
      | report =>
        obtain ⟨hothers, hstate, -, hm, hlast⟩ := hdegraded
          (degrade k (missRule s k).1 (missNoted k why (slotJudged (lineOf k) x s))) (by
            rw [degrade_stations, degrade_stations]
            rfl)
        obtain ⟨hothers', hstate', hnoted, hm', hlast'⟩ := noteLimit_record k
          (degrade k (missRule s k).1 (missNoted k why (slotJudged (lineOf k) x s)))
        exact ⟨fun k' hk' => (hothers' k' hk').trans (hothers k' hk'), fun h => absurd h hbelow,
          fun _ => ⟨fun h => absurd h (by decide), fun h => absurd h (by decide),
            fun _ => ⟨hstate'.trans hstate, hnoted⟩, fun h => absurd h (by decide), hm'.trans hm, hlast'.trans hlast,
            fun h => absurd h (by decide)⟩⟩
      | ignore =>
        obtain ⟨hothers, hstate, hnoted, hm, hlast⟩ := hdegraded
          (degrade k (missRule s k).1 (missNoted k why (slotJudged (lineOf k) x s))) (by
            rw [degrade_stations, degrade_stations]
            rfl)
        exact ⟨hothers, fun h => absurd h hbelow, fun _ => ⟨fun h => absurd h (by decide),
          fun h => absurd h (by decide), fun h => absurd h (by decide), fun _ => ⟨hstate, hnoted⟩, hm, hlast,
          fun h => absurd h (by decide)⟩⟩

end Sys2Proof.Proofs
end

section
/-! The local inputs: samples and flips (R74, R75), with PLUG's way to the S-line engine (R36, R37). -/

namespace Sys2Proof.Proofs

open Sys2Proof Sys2Proof.Machine Sys2Proof.Safety Sys2Proof.Laws

/-! ### A change set without an entry (R77, R78) -/

/-- No point of an image moves in value or quality. -/
def SameReadings (old new : List Point) : Prop :=
  ∀ (i : Nat) (p q : Point), old[i]? = some p → new[i]? = some q → samePoint p q = true

theorem changesFrom_nil_of_same {new : List Point} (old : List Point) (n : Nat)
    (hsame : SameReadings old new) : changesFrom n old new = [] := by
  refine List.eq_nil_iff_forall_not_mem.2 fun c hc => ?_
  obtain ⟨j, p, q, hp, hq, hdiffer, -⟩ := (mem_changesFrom old n new).1 hc
  rw [hsame j p q hp hq] at hdiffer
  cases hdiffer

theorem flagChanges_of_same (old : List Point) : ∀ {new : List Point},
    SameReadings old new → flagChanges old new = new := by
  induction old with
  | nil => exact fun _ => rfl
  | cons p ps ih =>
    intro new hsame
    cases new with
    | nil => rfl
    | cons q qs =>
      have hhead : samePoint p q = true := hsame 0 p q rfl rfl
      have htail := ih (new := qs) fun i => hsame (i + 1)
      simp [flagChanges, hhead, htail]

theorem commitPoints_of_same {new : List Point} {s : State}
    (hsame : SameReadings s.points new) :
    commitPoints new s = ({ s with points := new }, []) := by
  unfold commitPoints
  rw [changesFrom_nil_of_same _ _ hsame, flagChanges_of_same _ hsame]
  rfl

/-- Where no point moves, no receiver acts (R78). -/
theorem deliverPoints_of_same {new : List Point} {s : State}
    (hsame : SameReadings s.points new) :
    deliverPoints new s = { s with points := new } := by
  unfold deliverPoints
  rw [commitPoints_of_same hsame]
  simp [interlockReads, groupsList, concerns, cabReads, selectGroup]

/-- One point's new record that keeps its value and quality. -/
theorem same_setPoint {i : Nat} {f : Point → Point} {s : State} (hvalue : (f (pointAt s i)).value = (pointAt s i).value)
    (hquality : (f (pointAt s i)).quality = (pointAt s i).quality) :
    SameReadings s.points (setPoint i f s.points) := by
  intro n p q hp hq
  rw [setPoint, List.getElem?_set] at hq
  split at hq
  · rename_i hi
    subst hi
    split at hq
    · cases hq
      have hpoint : pointAt s i = p := by
        rw [pointAt, List.getD_eq_getElem?_getD, hp]
        rfl
      have hpoint' : s.points.getD i Point.unmapped = p := hpoint
      rw [hpoint] at hvalue hquality
      rw [hpoint']
      exact (samePoint_iff _ _).2 ⟨hvalue.symm, hquality.symm⟩
    · cases hq
  · rw [hp] at hq
    cases hq
    exact samePoint_self p

/-! ### A local input's new record (R74) -/

section Inputs

variable {s : State} {k : Nat} {level : Bool} {f : Point → Point}

theorem setInput_same (hvalue : (f (pointAt s k)).value = (pointAt s k).value)
    (hquality : (f (pointAt s k)).quality = (pointAt s k).quality) :
    setInput k level f s = { s with points := setPoint k f s.points } := by
  unfold setInput
  dsimp only
  rw [if_neg fun h => h.2 hvalue.symm, deliverPoints_of_same (same_setPoint hvalue hquality)]

/-- Where the level is new, the change set is delivered and PLUG's flip reaches the S-line engine. -/
theorem setInput_flips (hvalue : (f (pointAt s k)).value ≠ (pointAt s k).value) :
    setInput k level f s =
      if k = 0 then plugFlip level (deliverPoints (setPoint k f s.points) s)
      else deliverPoints (setPoint k f s.points) s := by
  unfold setInput
  dsimp only
  by_cases hk : k = 0
  · rw [if_pos ⟨hk, hvalue.symm⟩, if_pos hk]
  · rw [if_neg fun h => hk h.1, if_neg hk]

theorem deliverPoints_store (new : List Point) (s : State) (hlen : new.length = s.points.length) :
    (deliverPoints new s).store = s.store :=
  deliverPoints_keeps (link_store s.store) new s hlen rfl

theorem plugFlip_deliver (level : Bool) {new : List Point} (hlen : new.length = s.points.length) :
    plugFlip level (deliverPoints new s) =
      if s.store.working.plugUsed then
        (if level then plugRise (deliverPoints new s) else plugFall (deliverPoints new s))
      else deliverPoints new s := by
  rw [plugFlip, deliverPoints_store new s hlen]

/-- A flip of a local input (R74, R75). -/
theorem flipInput_eq (k : Nat) (level : Bool) (s : State) : flipInput k level s =
    if k = 0 ∧ s.store.working.plugUsed = true ∧ (pointAt s 0).value ≠ level.toNat then
      (if level then plugRise (deliverPoints (setPoint k (acceptLevel level) s.points) s)
        else plugFall (deliverPoints (setPoint k (acceptLevel level) s.points) s))
    else deliverPoints (setPoint k (acceptLevel level) s.points) s := by
  unfold flipInput
  by_cases hvalue : (acceptLevel level (pointAt s k)).value = (pointAt s k).value
  · rw [setInput_same hvalue rfl, if_neg, deliverPoints_of_same (same_setPoint hvalue rfl)]
    rintro ⟨hk, -, hne⟩
    subst hk
    exact hne hvalue.symm
  · rw [setInput_flips hvalue, plugFlip_deliver level (length_setPoint _ _ _)]
    by_cases hk : k = 0
    · subst hk
      have hne : (pointAt s 0).value ≠ level.toNat := Ne.symm hvalue
      simp [hne]
    · simp [hk]

end Inputs

/-! ### Samples (R74) -/

/-- The record of an input whose sample changes no accepted value. -/
def countedInput (level : Bool) (p : Point) : Point :=
  { p with
    raw := some (BitVec.ofNat 16 level.toNat)
    counter := if p.value = (level.toNat : Int) then 0 else p.counter + 1 }

section Samples

variable {lin : Byte} {s : State} {k : Nat}

theorem samplePoint_of_quiet {qualify : Nat} {level : Bool} {p : Point}
    (h : p.value = (level.toNat : Int) ∨ p.counter + 1 < qualify) :
    samplePoint qualify level p = countedInput level p := by
  unfold samplePoint countedInput
  split
  · rfl
  · next hv =>
    rw [if_neg (Nat.not_le.2 (h.resolve_left hv))]
    rfl

/-- An input short of its qualification time. -/
def QuietInput (lin : Byte) (s : State) (k : Nat) : Prop :=
  (pointAt s k).value = (lin.getLsbD k).toNat ∨ (pointAt s k).counter + 1 < s.store.working.qualifyMs.getD k 20

theorem sampleInput_quiet (h : QuietInput lin s k) : sampleInput lin s k =
    { s with points := s.points.set k (countedInput (lin.getLsbD k) (pointAt s k)) } := by
  have hpoint : samplePoint (qualifyOf s k) (lin.getLsbD k) (pointAt s k) =
      countedInput (lin.getLsbD k) (pointAt s k) := samplePoint_of_quiet h
  unfold sampleInput
  rw [setInput_same (by rw [hpoint]; rfl) (by rw [hpoint]; rfl), setPoint]
  exact congrArg (fun p => { s with points := s.points.set k p }) hpoint

/-- A sample of inputs of which none reaches its qualification time. -/
theorem sampleInputs_quiet (ks : List Nat) : ∀ s : State, ks.Nodup → (∀ k ∈ ks, k < s.points.length) →
    (∀ k ∈ ks, QuietInput lin s k) →
    ks.foldl (sampleInput lin) s = { s with points := (ks.foldl (sampleInput lin) s).points } ∧
    ∀ i, pointAt (ks.foldl (sampleInput lin) s) i =
      if i ∈ ks then countedInput (lin.getLsbD i) (pointAt s i) else pointAt s i := by
  induction ks with
  | nil => exact fun s _ _ _ => ⟨rfl, fun i => by simp⟩
  | cons k ks ih =>
    intro s hnodup hinside hquiet
    obtain ⟨hk, hrest⟩ := List.nodup_cons.1 hnodup
    have hfirst := sampleInput_quiet (hquiet k List.mem_cons_self)
    have hpoint : ∀ i, pointAt (sampleInput lin s k) i =
        if i = k then countedInput (lin.getLsbD k) (pointAt s k) else pointAt s i := fun i => by
      rw [hfirst, pointAt, List.getD_eq_getElem?_getD, List.getElem?_set]
      by_cases hi : k = i
      · subst hi
        simp [hinside k List.mem_cons_self]
      · rw [if_neg hi, if_neg (Ne.symm hi), pointAt, List.getD_eq_getElem?_getD]
    have hother : ∀ i ∈ ks, pointAt (sampleInput lin s k) i = pointAt s i := fun i hi => by
      rw [hpoint, if_neg (ne_of_mem_of_not_mem hi hk)]
    obtain ⟨hstate, hpoints⟩ := ih (sampleInput lin s k) hrest
      (fun i hi => by
        rw [hfirst]
        simpa using hinside i (List.mem_cons_of_mem k hi))
      (fun i hi => by
        have hstore : (sampleInput lin s k).store = s.store := by rw [hfirst]
        unfold QuietInput
        rw [hother i hi, hstore]
        exact hquiet i (List.mem_cons_of_mem k hi))
    refine ⟨?_, fun i => ?_⟩
    · rw [List.foldl_cons, hstate, hfirst]
    · rw [List.foldl_cons, hpoints, hpoint]
      by_cases hi : i = k
      · subst hi
        simp [hk]
      · simp [hi]

/-- One input's sample, by what it finds (R74, R75). -/
theorem sampleInput_eq (lin : Byte) (s : State) (k : Nat) : sampleInput lin s k =
    if (pointAt s k).value = ((lin.getLsbD k).toNat : Int) then
      { s with points := s.points.set k { pointAt s k with
          raw := some (BitVec.ofNat 16 (lin.getLsbD k).toNat), counter := 0 } }
    else if (pointAt s k).counter + 1 < s.store.working.qualifyMs.getD k 20 then
      { s with points := s.points.set k { pointAt s k with
          raw := some (BitVec.ofNat 16 (lin.getLsbD k).toNat), counter := (pointAt s k).counter + 1 } }
    else if k = 0 ∧ s.store.working.plugUsed = true then
      (if lin.getLsbD k then plugRise (deliverPoints (s.points.set k { pointAt s k with
          raw := some (BitVec.ofNat 16 (lin.getLsbD k).toNat), value := (lin.getLsbD k).toNat, counter := 0 }) s)
        else plugFall (deliverPoints (s.points.set k { pointAt s k with
          raw := some (BitVec.ofNat 16 (lin.getLsbD k).toNat), value := (lin.getLsbD k).toNat, counter := 0 }) s))
    else deliverPoints (s.points.set k { pointAt s k with
          raw := some (BitVec.ofNat 16 (lin.getLsbD k).toNat), value := (lin.getLsbD k).toNat, counter := 0 }) s := by
  by_cases hvalue : (pointAt s k).value = ((lin.getLsbD k).toNat : Int)
  · rw [if_pos hvalue, sampleInput_quiet (Or.inl hvalue), countedInput, if_pos hvalue]
  · rw [if_neg hvalue]
    by_cases hcount : (pointAt s k).counter + 1 < s.store.working.qualifyMs.getD k 20
    · rw [if_pos hcount, sampleInput_quiet (Or.inr hcount), countedInput, if_neg hvalue]
    · have hpoint : samplePoint (qualifyOf s k) (lin.getLsbD k) (pointAt s k) =
          acceptLevel (lin.getLsbD k) (pointAt s k) := by
        rw [samplePoint, if_neg hvalue, if_pos (show qualifyOf s k ≤ _ from Nat.not_lt.1 hcount)]
      have hset : setPoint k (samplePoint (qualifyOf s k) (lin.getLsbD k)) s.points =
          s.points.set k (acceptLevel (lin.getLsbD k) (pointAt s k)) := congrArg (s.points.set k) hpoint
      rw [if_neg hcount]
      unfold sampleInput
      rw [setInput_flips (by rw [hpoint]; exact Ne.symm hvalue), plugFlip_deliver _ (length_setPoint _ _ _), hset]
      by_cases hk : k = 0
      · by_cases hplug : s.store.working.plugUsed = true
        · rw [if_pos hk, if_pos hplug, if_pos (And.intro hk hplug)]
          rfl
        · rw [if_pos hk, if_neg hplug, if_neg (fun h => hplug h.2 : ¬(k = 0 ∧ s.store.working.plugUsed = true))]
          rfl
      · rw [if_neg hk, if_neg (fun h => hk h.1 : ¬(k = 0 ∧ s.store.working.plugUsed = true))]
        rfl

end Samples

/-! ### The rows (R74; log entry 29) -/

theorem localInputFlip_row {s : State} {k : Fin 8} {level : Bool} (hheld : s.held = false)
    (hchange : s.hub.change = none) :
    exec (.localInputFlip k level) s = .next (flipInput k.val level s) := by
  have hhub : (flipInput k.val level s).hub = s.hub := setInput_keeps (link_hub s.hub) _ _ _ s rfl
  exact congrArg Host.Outcome.next ((unlessHeld_of_high hheld).trans
    (settleChange_of_steady (by rw [hhub, hchange])))

theorem localInputSample_row {s : State} {lin : Byte} (hheld : s.held = false) (hchange : s.hub.change = none) :
    exec (.localInputSample lin) s = .next (sampleInputs lin s) := by
  have hhub : (sampleInputs lin s).hub = s.hub := sampleInputs_keeps (link_hub s.hub) lin s rfl
  exact congrArg Host.Outcome.next ((unlessHeld_of_high hheld).trans
    (settleChange_of_steady (by rw [hhub, hchange])))

/-- Settles O38. -/
theorem localInputsSampledAndFlipped : Obligations.LocalInputsSampledAndFlipped := by
  refine ⟨fun s k level hheld hchange u hu => ?_, fun s lin hheld hchange hwhole hquiet => ?_,
    fun s lin hheld hchange => ?_⟩
  · rw [localInputFlip_row hheld hchange, flipInput_eq]
    have hu' : deliverPoints (setPoint k.val (acceptLevel level) s.points) s = u := hu.symm
    rw [hu']
    refine ⟨fun h => ?_, fun hk hplug hvalue => ?_⟩
    · rw [if_neg]
      rintro ⟨hk, hplug, hvalue⟩
      rcases h with h | h | h
      · exact h (Fin.ext hk)
      · rw [h] at hplug
        cases hplug
      · exact hvalue h
    · subst hk
      rw [if_pos ⟨rfl, hplug, hvalue⟩]
  · refine ⟨_, localInputSample_row hheld hchange, ?_⟩
    have hwhole' : s.points.length = 256 := hwhole
    obtain ⟨hstate, hpoints⟩ := sampleInputs_quiet (lin := lin) [0, 1, 2, 3, 4, 5, 6, 7] { s with now := s.now + 1 }
      (by decide) (fun k hk => by
        have : k ≤ 7 := by simp at hk; omega
        show k < s.points.length
        omega) (fun k hk => hquiet k (by simp at hk; omega))
    refine ⟨hstate, fun i => (hpoints i).trans ?_⟩
    by_cases hi : i < 8
    · rw [if_pos hi, if_pos (by simp; omega)]
      rfl
    · rw [if_neg hi, if_neg (by simp; omega)]
      rfl
  · rw [localInputSample_row hheld hchange]
    unfold sampleInputs
    congr 2
    funext u k
    exact sampleInput_eq lin u k

end Sys2Proof.Proofs
end

section
/-! A cycle start (R17, R18, R70, R71, R201): settings and schedule taken up, the windows aged, the slots laid out. -/

namespace Sys2Proof.Proofs

open Sys2Proof Sys2Proof.Machine Sys2Proof.Safety Sys2Proof.Laws

/-! ### The layout (R17, R19) -/

theorem layoutFrom_sum (s : State) (ls : LineSettings) (sched : List Stn) : ∀ a,
    ((layoutFrom s ls a sched).map (·.length)).sum = scheduleCost s ls sched := by
  induction sched with
  | nil => exact fun a => by simp [layoutFrom, scheduleCost]
  | cons k ks ih =>
    intro a
    rw [layoutFrom, List.map_cons, List.sum_cons, ih]
    simp only [scheduleCost, List.map_cons, List.sum_cons]
    omega

/-- The first slot of a layout starts where it is laid. -/
theorem layoutFrom_head (s : State) (ls : LineSettings) (a : Nat) (sched : List Stn) :
    ∀ x ∈ (layoutFrom s ls a sched).head?, x.start = a := by
  cases sched <;> simp [layoutFrom]

theorem layoutFrom_chain (s : State) (ls : LineSettings) (sched : List Stn) : ∀ a,
    (layoutFrom s ls a sched).IsChain (fun x y => y.start = x.start + x.length) := by
  induction sched with
  | nil => exact fun a => by simp [layoutFrom]
  | cons k ks ih =>
    exact fun a => List.isChain_cons.2 ⟨fun x hx => layoutFrom_head s ls _ ks x hx, ih _⟩

/-! ### Ageing (R70) -/

theorem ageable_iff (q : Point) : ageable q = true ↔
    ((q.kind = .din ∨ q.kind = .ain) ∧ (q.quality = .good ∨ q.quality = .fault)) ∨
      (q.kind = .dout ∧ (q.quality = .good ∨ q.quality = .pending)) := by
  unfold ageable
  split <;> grind

theorem agePoint_eq (limit : Nat) (q : Point) : agePoint limit q =
    { q with
      age := min 255 (q.age + 1)
      quality :=
        if limit < min 255 (q.age + 1) ∧
          (((q.kind = .din ∨ q.kind = .ain) ∧ (q.quality = .good ∨ q.quality = .fault)) ∨
            (q.kind = .dout ∧ (q.quality = .good ∨ q.quality = .pending)))
        then .stale else q.quality } := by
  have htest : (ageable { q with age := satSucc 255 q.age } && decide (limit < satSucc 255 q.age)) = true ↔
      limit < min 255 (q.age + 1) ∧
        (((q.kind = .din ∨ q.kind = .ain) ∧ (q.quality = .good ∨ q.quality = .fault)) ∨
          (q.kind = .dout ∧ (q.quality = .good ∨ q.quality = .pending))) := by
    rw [Bool.and_eq_true, decide_eq_true_eq, ageable_iff, and_comm]
    rfl
  unfold agePoint
  dsimp only
  split
  · next h => rw [if_pos (htest.1 h)]; rfl
  · next h => rw [if_neg fun hold => h (htest.2 hold)]; rfl

/-! ### What the receivers of a change set leave -/

/-- Receivers of a change set leave what notices, evaluations and the cab service leave. -/
theorem deliverPoints_inner {P : State → Prop} (h : Inner P)
    (hpoints : ∀ s pts, P s → P { s with points := pts }) (new : List Point) (s : State) (hs : P s) :
    P (deliverPoints new s) :=
  cabReads_keeps h _ _ (interlockReads_keeps h _ _ (foldl_keeps _ (pointNotice_keeps h.toImage) _ _ (hpoints _ _ hs)))

section Ageing

variable {s : State} {k : Stn}

theorem ageStation_inner {P : State → Prop} (h : Inner P) (hpoints : ∀ s pts, P s → P { s with points := pts })
    (hraw : ∀ s x, P s → P { s with raw := x }) (hstale : ∀ s x, P s → P { s with staleLimits := x })
    (s : State) (k : Stn) (hs : P s) : P (ageStation s k) := by
  have haged : P { s with raw := s.raw.set k ((s.raw.get k).map fun r => { r with age := satSucc 255 r.age }) } :=
    hraw s _ hs
  unfold ageStation
  dsimp only
  split
  · split
    · exact deliverPoints_inner h hpoints _ _ (hstale _ _ haged)
    · exact haged
  · exact haged

theorem startCycle_inner {P : State → Prop} (h : Inner P) (hpoints : ∀ s pts, P s → P { s with points := pts })
    (hraw : ∀ s x, P s → P { s with raw := x }) (hstale : ∀ s x, P s → P { s with staleLimits := x })
    (l : Line) (s : State) (hs : P (updLine l (takeUp s) s)) : P (startCycle l s) := by
  have haged := foldl_keeps ageStation (fun u k hu => ageStation_inner h hpoints hraw hstale u k hu)
    (lineStations l) _ hs
  cases l with
  | s => exact haged
  | c => exact offerCabWrites_keeps h.toPanel _ haged

/-! ### One window's ageing, from the state at the cycle's start -/

/-- A raw record a cycle older (R201). -/
def agedRaw (s : State) (k : Stn) : Option RawRec :=
  (s.raw.get k).map (fun r => { r with age := min 255 (r.age + 1) })

/-- The stale limit of a station under the line's settings in force (R71). -/
def agedLimit (ls : LineSettings) (s : State) (k : Stn) : Option Nat :=
  if isMapped (s.stations.get k).state then
    match profileOf s k with
    | some p => some (staleLimit p.maxAgeMs ls.period)
    | none => s.staleLimits.get k
  else s.staleLimits.get k

/-- A station's raw record and stale limit at the cycle's start. -/
def agedRecords (ls : LineSettings) (s u : State) (k : Stn) : State :=
  { u with raw := u.raw.set k (agedRaw s k), staleLimits := u.staleLimits.set k (agedLimit ls s k) }

/-- A station's part of a cycle start, told from the state `s` at its beginning. -/
def agedStation (ls : LineSettings) (s u : State) (k : Stn) : State :=
  match profileOf s k with
  | none => agedRecords ls s u k
  | some p =>
    if isMapped (s.stations.get k).state = false then agedRecords ls s u k
    else deliverPoints (ageWindow p (staleLimit p.maxAgeMs ls.period) u.points) (agedRecords ls s u k)

/-- The stations `ks` still stand as at the cycle's start. -/
structure Unaged (ls : LineSettings) (s : State) (ks : List Stn) (u : State) : Prop where
  stations : u.stations = s.stations
  profiles : u.profiles = s.profiles
  settings : ∀ k ∈ ks, (u.lines.get (lineOf k)).inForce = ls
  raw : ∀ k ∈ ks, u.raw.get k = s.raw.get k
  stale : ∀ k ∈ ks, u.staleLimits.get k = s.staleLimits.get k

variable {ls : LineSettings} {ks : List Stn} {u : State}

theorem ageStation_eq (h : Unaged ls s (k :: ks) u) : ageStation u k = agedStation ls s u k := by
  have hk : k ∈ k :: ks := List.mem_cons_self
  have hprofile : profileOf { u with raw := u.raw.set k ((u.raw.get k).map fun r =>
      { r with age := satSucc 255 r.age }) } k = profileOf s k := profileOf_congr h.stations h.profiles k
  have hstate : stateOf { u with raw := u.raw.set k ((u.raw.get k).map fun r =>
      { r with age := satSucc 255 r.age }) } k = (s.stations.get k).state := by
    rw [← h.stations]
    rfl
  have hraw : (u.raw.get k).map (fun r => { r with age := satSucc 255 r.age }) = agedRaw s k := by
    rw [h.raw k hk]
    rfl
  have hkept : u.staleLimits.set k (s.staleLimits.get k) = u.staleLimits := by
    rw [← h.stale k hk, ByStn.set_get]
  unfold ageStation
  dsimp only
  rw [hstate, hprofile, hraw, h.settings k hk]
  unfold agedStation agedRecords agedLimit
  cases hp : profileOf s k with
  | none =>
    dsimp only
    rw [ite_self, ite_self, hkept]
  | some p =>
    dsimp only
    cases hmapped : isMapped (s.stations.get k).state with
    | true => rfl
    | false =>
      rw [if_neg Bool.false_ne_true, if_neg Bool.false_ne_true, if_pos rfl, hkept]

theorem agedStation_inner {P : State → Prop} (h : Inner P) (hpoints : ∀ s pts, P s → P { s with points := pts })
    (hrecords : P (agedRecords ls s u k)) : P (agedStation ls s u k) := by
  unfold agedStation
  split
  · exact hrecords
  · split
    · exact hrecords
    · exact deliverPoints_inner h hpoints _ _ hrecords

theorem agedStation_raw : (agedStation ls s u k).raw = u.raw.set k (agedRaw s k) :=
  agedStation_inner (inner_raw _) (fun _ _ h => h) rfl

theorem agedStation_stale : (agedStation ls s u k).staleLimits = u.staleLimits.set k (agedLimit ls s k) :=
  agedStation_inner (inner_staleLimits _) (fun _ _ h => h) rfl

theorem Unaged.tail (h : Unaged ls s (k :: ks) u) (hk : k ∉ ks) : Unaged ls s ks (agedStation ls s u k) where
  stations := agedStation_inner (inner_stations _) (fun _ _ h => h) h.stations
  profiles := agedStation_inner (inner_profiles _) (fun _ _ h => h) h.profiles
  settings i hi := by
    have hlines : (agedStation ls s u k).lines = u.lines := agedStation_inner (inner_lines _) (fun _ _ h => h) rfl
    rw [hlines]
    exact h.settings i (List.mem_cons_of_mem k hi)
  raw i hi := by
    rw [agedStation_raw, ByStn.get_set_ne _ _ (ne_of_mem_of_not_mem hi hk)]
    exact h.raw i (List.mem_cons_of_mem k hi)
  stale i hi := by
    rw [agedStation_stale, ByStn.get_set_ne _ _ (ne_of_mem_of_not_mem hi hk)]
    exact h.stale i (List.mem_cons_of_mem k hi)

/-- The stations of a line age one after the other, each told from the cycle's start. -/
theorem ageStations_eq (ks : List Stn) : ∀ u, ks.Nodup → Unaged ls s ks u →
    ks.foldl ageStation u = ks.foldl (agedStation ls s) u ∧
    (∀ k, (ks.foldl ageStation u).raw.get k = if k ∈ ks then agedRaw s k else u.raw.get k) ∧
    ∀ k, (ks.foldl ageStation u).staleLimits.get k = if k ∈ ks then agedLimit ls s k else u.staleLimits.get k := by
  induction ks with
  | nil => exact fun u _ _ => ⟨rfl, fun k => by simp, fun k => by simp⟩
  | cons k ks ih =>
    intro u hnodup h
    obtain ⟨hk, hrest⟩ := List.nodup_cons.1 hnodup
    obtain ⟨hfold, hraw, hstale⟩ := ih (agedStation ls s u k) hrest (h.tail hk)
    rw [List.foldl_cons, ageStation_eq h]
    refine ⟨hfold, fun i => ?_, fun i => ?_⟩
    · rw [hraw, agedStation_raw, ByStn.get_set]
      by_cases hi : i = k
      · subst hi
        simp
      · simp [hi]
    · rw [hstale, agedStation_stale, ByStn.get_set]
      by_cases hi : i = k
      · subst hi
        simp
      · simp [hi]

end Ageing

/-! ### The row -/

theorem mem_lineStations {k : Stn} {l : Line} : k ∈ lineStations l ↔ lineOf k = l := by
  cases l <;> cases k <;> decide

theorem lineStations_nodup (l : Line) : (lineStations l).Nodup := by cases l <;> decide

/-- The settings that a cycle start puts in force. -/
def takenSettings (l : Line) (s : State) : LineSettings := (s.lines.get l).awaiting.getD (s.lines.get l).inForce

section Start

variable {s : State} {l : Line}

theorem startCycle_lines : (startCycle l s).lines = s.lines.set l (takeUp s (s.lines.get l)) :=
  startCycle_inner (inner_lines _) (fun _ _ h => h) (fun _ _ h => h) (fun _ _ h => h) l s rfl

theorem startCycle_unaged (s : State) (l : Line) :
    Unaged (takenSettings l s) s (lineStations l) (updLine l (takeUp s) s) where
  stations := rfl
  profiles := rfl
  settings k hk := by
    rw [mem_lineStations.1 hk, updLine_lines, ByLine.get_set_self]
    rfl
  raw _ _ := rfl
  stale _ _ := rfl

/-- What stands behind the ageing: on the C-line the cab's lamp writes are offered (R171). -/
theorem startCycle_eq (l : Line) (s : State) : startCycle l s =
    (if l = .c then offerCabWrites ((lineStations l).foldl ageStation (updLine l (takeUp s) s))
      else (lineStations l).foldl ageStation (updLine l (takeUp s) s)) := by
  cases l with
  | s => rfl
  | c => rfl

theorem startCycle_raw (k : Stn) :
    (startCycle l s).raw.get k = if lineOf k = l then agedRaw s k else s.raw.get k := by
  have haged := (ageStations_eq (lineStations l) _ (lineStations_nodup l) (startCycle_unaged s l)).2.1 k
  have hkeep : (startCycle l s).raw = ((lineStations l).foldl ageStation (updLine l (takeUp s) s)).raw := by
    rw [startCycle_eq]
    split
    · exact offerCabWrites_keeps (inner_raw _).toPanel _ rfl
    · rfl
  rw [hkeep, haged]
  simp only [mem_lineStations]
  rfl

theorem startCycle_stale (k : Stn) : (startCycle l s).staleLimits.get k =
    if lineOf k = l then agedLimit (takenSettings l s) s k else s.staleLimits.get k := by
  have haged := (ageStations_eq (lineStations l) _ (lineStations_nodup l) (startCycle_unaged s l)).2.2 k
  have hkeep : (startCycle l s).staleLimits =
      ((lineStations l).foldl ageStation (updLine l (takeUp s) s)).staleLimits := by
    rw [startCycle_eq]
    split
    · exact offerCabWrites_keeps (inner_staleLimits _).toPanel _ rfl
    · rfl
  rw [hkeep, haged]
  simp only [mem_lineStations]
  rfl

end Start

theorem cycleStart_row {s : State} {l : Line} (hheld : s.held = false) :
    exec (.cycleStart l) s = .next (startCycle l s) :=
  congrArg Host.Outcome.next (unlessHeld_of_high hheld)

/-- Settles O39. -/
theorem cycleStartTakesUp : Obligations.CycleStartTakesUp := by
  refine ⟨fun s l hheld => ⟨_, cycleStart_row hheld, ?_⟩,
    fun s ls a sched => ⟨layoutFrom_sum s ls sched a, layoutFrom_chain s ls sched a⟩⟩
  have hlines := startCycle_lines (s := s) (l := l)
  have hline : (startCycle l s).lines.get l = takeUp s (s.lines.get l) := by
    rw [hlines, ByLine.get_set_self]
  have hperiod : (takeUp s (s.lines.get l)).inForce = takenSettings l s := rfl
  rw [hline]
  refine ⟨rfl, fun l' hl' => by rw [hlines, ByLine.get_set_ne _ _ hl'],
    startCycle_inner (inner_stations _) (fun _ _ h => h) (fun _ _ h => h) (fun _ _ h => h) l s rfl,
    startCycle_inner (inner_store _) (fun _ _ h => h) (fun _ _ h => h) (fun _ _ h => h) l s rfl,
    startCycle_raw, fun k => ?_, fun w hw => ?_⟩
  · rw [startCycle_stale, hperiod]
    unfold agedLimit
    by_cases hk : lineOf k = l
    · cases hmapped : isMapped (s.stations.get k).state with
      | true =>
        rw [if_pos hk, if_pos rfl, if_pos (And.intro hk rfl)]
        rfl
      | false => rw [if_pos hk, if_neg Bool.false_ne_true, if_neg fun h => Bool.false_ne_true h.2]
    · rw [if_neg hk, if_neg fun h => hk h.1]
  · have hfold := (ageStations_eq (lineStations l) _ (lineStations_nodup l) (startCycle_unaged s l)).1
    have hw' : updLine l (takeUp s) s = w := by
      rw [hw, hlines]
      rfl
    have heq := startCycle_eq l s
    rw [hfold, hw'] at heq
    refine heq.trans (congrArg (fun u => if l = .c then offerCabWrites u else u)
      (List.foldl_ext _ _ _ fun u k hk => ?_))
    have hk' := mem_lineStations.1 hk
    have hrecords : agedRecords (takenSettings l s) s u k =
        { u with
          raw := u.raw.set k ((startCycle l s).raw.get k)
          staleLimits := u.staleLimits.set k ((startCycle l s).staleLimits.get k) } := by
      rw [startCycle_raw, startCycle_stale, if_pos hk', if_pos hk']
      rfl
    rw [← hrecords, hperiod]
    unfold agedStation
    cases hp : profileOf s k with
    | none => rfl
    | some p =>
      dsimp only
      rw [ageWindow, mapWindow_eq]
      simp only [agePoint_eq]
      rfl

end Sys2Proof.Proofs
end

section
/-! The pins of a line bit by bit (R1, R2, R4), and what each slot start sends (R20 to R22, R41, R89). -/

namespace Sys2Proof.Proofs

open Sys2Proof Sys2Proof.Machine Sys2Proof.Safety Sys2Proof.Laws

/-! ### The bits of a request (R2) -/

theorem wireBits_getD {j : Nat} (hj : j < 10) (b : Byte) :
    (wireBits b).getD j true = if j = 0 then false else if j = 9 then true else b.getLsbD (j - 1) := by
  interval_cases j <;> rfl

/-- Bit `j` of byte `i` stands at place `10 * i + j` of a request. -/
theorem requestBits_getD {j : Nat} (hj : j < 10) {b : Byte} (request : List Byte) : ∀ i, request[i]? = some b →
    (request.flatMap wireBits).getD (10 * i + j) true =
      if j = 0 then false else if j = 9 then true else b.getLsbD (j - 1) := by
  induction request with
  | nil => exact fun i h => by simp at h
  | cons a rest ih =>
    intro i h
    rw [List.flatMap_cons]
    cases i with
    | zero =>
      obtain rfl : a = b := by simpa using h
      rw [List.getD_append _ _ _ _ (by simp; omega), Nat.mul_zero, Nat.zero_add, wireBits_getD hj]
    | succ i =>
      rw [List.getD_append_right _ _ _ _ (by simp; omega), wireBits_length]
      have hplace : 10 * (i + 1) + j - 10 = 10 * i + j := by omega
      rw [hplace]
      exact ih i (by simpa using h)

/-! ### The pins of a slot (R1, R4) -/

section Pins

variable {s : State} {l : Line} {x : Slot} {t : Nat}

theorem slotOnWire_none (h : s.held = true ∨ (s.lines.get l).running = false ∨ (s.lines.get l).slot = none) :
    slotOnWire s l = none := by
  unfold slotOnWire
  rcases h with h | h | h
  · simp [h]
  · simp [h]
  · simp [h]

theorem slotOnWire_some (hheld : s.held = false) (hrun : (s.lines.get l).running = true)
    (hslot : (s.lines.get l).slot = some x) : slotOnWire s l = some x := by
  simp [slotOnWire, hheld, hrun, hslot]

/-- The pins of a line whose slot is on the wire. -/
theorem pins_of_slot (h : slotOnWire s l = some x) : driverPin s l t = driverEnabled x t ∧
    transmitPin s l t = transmitLevel x t ∧ receiverOpen s l t = receiverOpens x t := by
  simp [driverPin, transmitPin, receiverOpen, h]

theorem driverRises_eq : driverRises x = 30 * x.settings.divisor := by
  unfold driverRises byteTime
  omega

theorem driverFalls_eq : driverFalls x = (30 + 10 * x.request.length) * x.settings.divisor := by
  unfold driverFalls byteTime
  rw [driverRises_eq, Nat.add_mul]
  congr 1
  ring

theorem transmitLevel_idle (h : driverEnabled x t = false) : transmitLevel x t = true := by
  rw [transmitLevel, h]
  rfl

theorem pins_before (ht : t < 30 * x.settings.divisor) :
    driverEnabled x t = false ∧ transmitLevel x t = true ∧ receiverOpens x t = false := by
  have henabled : driverEnabled x t = false := by
    rw [driverEnabled, driverRises_eq, decide_eq_false (Nat.not_le.2 ht), Bool.false_and]
  refine ⟨henabled, transmitLevel_idle henabled, ?_⟩
  have hfalls : 30 * x.settings.divisor ≤ driverFalls x := by
    rw [driverFalls_eq]
    exact Nat.mul_le_mul_right _ (by omega)
  rw [receiverOpens, decide_eq_false (by omega), Bool.false_and]

theorem pins_in_request {i j : Nat} {b : Byte} (hb : x.request[i]? = some b) (hj : j < 10)
    (hfrom : (30 + 10 * i + j) * x.settings.divisor ≤ t) (hto : t < (30 + 10 * i + j + 1) * x.settings.divisor) :
    driverEnabled x t = true ∧ receiverOpens x t = false ∧
      transmitLevel x t = if j = 0 then false else if j = 9 then true else b.getLsbD (j - 1) := by
  obtain ⟨hi, -⟩ := List.getElem?_eq_some_iff.1 hb
  have hrise : 30 * x.settings.divisor ≤ t :=
    (Nat.mul_le_mul_right _ (by omega : 30 ≤ 30 + 10 * i + j)).trans hfrom
  have hfall : t < driverFalls x := by
    rw [driverFalls_eq]
    exact hto.trans_le (Nat.mul_le_mul_right _ (by omega))
  have henabled : driverEnabled x t = true := by
    rw [driverEnabled, driverRises_eq, decide_eq_true hrise, decide_eq_true hfall]
    rfl
  have hplace : (t - driverRises x) / x.settings.divisor = 10 * i + j := by
    rw [Nat.add_assoc 30, Nat.add_mul] at hfrom
    rw [Nat.add_assoc 30, Nat.add_assoc 30, Nat.add_mul] at hto
    rw [driverRises_eq]
    exact Nat.div_eq_of_lt_le (by omega) (by omega)
  refine ⟨henabled, ?_, ?_⟩
  · rw [receiverOpens, decide_eq_false (Nat.not_le.2 hfall), Bool.false_and]
  · rw [transmitLevel, henabled, if_pos rfl, hplace, requestBits_getD hj _ i hb]

theorem pins_after (ht : (30 + 10 * x.request.length) * x.settings.divisor ≤ t) :
    driverEnabled x t = false ∧ transmitLevel x t = true ∧ receiverOpens x t = decide (t < 48 * x.length) := by
  rw [← driverFalls_eq] at ht
  have henabled : driverEnabled x t = false := by
    rw [driverEnabled, decide_eq_false (Nat.not_lt.2 ht), Bool.and_false]
  refine ⟨henabled, transmitLevel_idle henabled, ?_⟩
  rw [receiverOpens, decide_eq_true ht, Bool.true_and]
  rfl

end Pins

/-! ### Slot starts (R20 to R22) -/

section Starts

variable {s : State} {n : Nat}

theorem stationSlot_sends {k : Stn} (hplan : plannedLength (s.lines.get (lineOf k)) (.station k) = some n)
    (hscanned : isScanned (s.stations.get k).state = true) : stationSlot k s = { s with
      outputs := s.outputs.set k (formBatch (s.outputs.get k))
      lines := s.lines.set (lineOf k) { s.lines.get (lineOf k) with
        slot := some ⟨.station k, k, fieldFrame false (addressOf k) .scan (scanPayload (formBatch (s.outputs.get k))),
          (s.lines.get (lineOf k)).inForce, n, false, false⟩ } } := by
  have hout : outOf (updOut k formBatch s) k = formBatch (s.outputs.get k) := by simp [outOf]
  have hscanned' : isScanned (stateOf s k) = true := hscanned
  unfold stationSlot
  rw [hplan]
  dsimp only
  rw [if_pos hscanned', hout]
  rfl

theorem stationSlot_silent {k : Stn} (hplan : plannedLength (s.lines.get (lineOf k)) (.station k) = some n)
    (hscanned : isScanned (s.stations.get k).state = false) : stationSlot k s =
      { s with lines := s.lines.set (lineOf k) { s.lines.get (lineOf k) with slot := none } } := by
  have hscanned' : isScanned (stateOf s k) = false := hscanned
  unfold stationSlot
  rw [hplan]
  dsimp only
  rw [hscanned']
  rfl

/-- A request sent on a line whose engine `f` has just moved a pointer of. -/
theorem sendRequest_after {k : Stn} {l : Line} (hl : lineOf k = l) (f : LineEngine → LineEngine)
    (hf : ∀ e, (f e).inForce = e.inForce) (slotKind : SlotKind) (kind : FrameKind) (payload : List Byte) (u : State)
    (hu : u.lines = s.lines.set l (f (s.lines.get l))) :
    sendRequest k slotKind n kind payload u = { u with lines := s.lines.set l { f (s.lines.get l) with
      slot := some ⟨slotKind, k, fieldFrame false (addressOf k) kind payload, (s.lines.get l).inForce, n,
        false, false⟩ } } := by
  subst hl
  unfold sendRequest openSlot updLine
  rw [hu]
  simp [hf]

theorem rotate_mem {ptr : Nat} {ks : List Stn} {k : Stn} (h : rotate ptr ks = some k) : k ∈ ks := by
  unfold rotate at h
  split at h
  · next heq =>
    cases h
    exact List.mem_of_find?_eq_some heq
  · exact List.mem_of_mem_head? h

theorem line_of_candidate {l : Line} {ptr : Nat} {p : Stn → Bool} {k : Stn}
    (h : rotate ptr ((lineStations l).filter p) = some k) : lineOf k = l :=
  mem_lineStations.1 (List.mem_filter.1 (rotate_mem h)).1

theorem probeSlot_sends {l : Line} {k : Stn} (hplan : plannedLength (s.lines.get l) .probe = some n)
    (hk : rotate (s.lines.get l).probePtr (candidates s l) = some k) : probeSlot l s =
      { s with lines := s.lines.set l { s.lines.get l with
          probePtr := addressOf k
          slot := some ⟨.probe, k, fieldFrame false (addressOf k) .roll [], (s.lines.get l).inForce, n,
            false, false⟩ } } := by
  unfold probeSlot
  rw [hplan]
  dsimp only
  rw [hk]
  exact sendRequest_after (line_of_candidate hk) (fun e => { e with probePtr := addressOf k }) (fun _ => rfl)
    _ _ _ _ rfl

theorem probeSlot_silent {l : Line} (hplan : plannedLength (s.lines.get l) .probe = some n)
    (hk : rotate (s.lines.get l).probePtr (candidates s l) = none) : probeSlot l s =
      { s with lines := s.lines.set l { s.lines.get l with slot := none } } := by
  unfold probeSlot
  rw [hplan]
  dsimp only
  rw [hk]
  rfl

theorem paramSlot_sends {l : Line} {k : Stn} {x : Transfer} (hplan : plannedLength (s.lines.get l) .param = some n)
    (hk : rotate (s.lines.get l).paramPtr (withTransfer s l) = some k) (hx : (s.stations.get k).transfer = some x) :
    paramSlot l s = { s with
      stations := s.stations.set k { s.stations.get k with transfer := some { x with attempts := x.attempts + 1 } }
      lines := s.lines.set l { s.lines.get l with
        paramPtr := addressOf k
        slot := some ⟨.param, k, fieldFrame false (addressOf k) (transferKind x.kind) (transferPayload x),
          (s.lines.get l).inForce, n, false, false⟩ } } := by
  unfold paramSlot
  rw [hplan]
  dsimp only
  rw [hk]
  dsimp only
  rw [hx]
  exact sendRequest_after (line_of_candidate hk) (fun e => { e with paramPtr := addressOf k }) (fun _ => rfl)
    _ _ _ _ rfl

theorem paramSlot_silent {l : Line} (hplan : plannedLength (s.lines.get l) .param = some n)
    (hk : rotate (s.lines.get l).paramPtr (withTransfer s l) = none) : paramSlot l s =
      { s with lines := s.lines.set l { s.lines.get l with slot := none } } := by
  unfold paramSlot
  rw [hplan]
  dsimp only
  rw [hk]
  rfl

end Starts

/-- Settles O40. -/
theorem slotStartsSendRequest : Obligations.SlotStartsSendRequest := by
  have hrow : ∀ {f : State → State} {s t : State}, s.held = false → f s = t →
      Host.Outcome.next (φ := Fault) (ρ := Refusal) (unlessHeld f s) = .next t := fun hheld hf =>
    congrArg Host.Outcome.next ((unlessHeld_of_high hheld).trans hf)
  refine ⟨fun s l t => ⟨fun h => pins_rest s l t (slotOnWire_none h), fun x d hheld hrun hslot hd => ?_⟩,
    fun s n hheld => ⟨fun k hplan => ⟨fun h => hrow hheld (stationSlot_sends hplan h),
      fun h => hrow hheld (stationSlot_silent hplan h)⟩,
      fun l hplan => ⟨fun k hk => hrow hheld (probeSlot_sends hplan hk),
        fun h => hrow hheld (probeSlot_silent hplan h)⟩,
      fun l hplan => ⟨fun k x hk hx => hrow hheld (paramSlot_sends hplan hk hx),
        fun h => hrow hheld (paramSlot_silent hplan h)⟩⟩⟩
  subst hd
  obtain ⟨hdriver, htransmit, hreceiver⟩ := pins_of_slot (t := t) (slotOnWire_some hheld hrun hslot)
  rw [hdriver, htransmit, hreceiver]
  exact ⟨pins_before, fun i b j hb hj hfrom hto => pins_in_request hb hj hfrom hto, pins_after⟩

end Sys2Proof.Proofs
end

section
/-! Profile records on the wire (R50 to R52, R211): a record written is read back as the fields that its kinds use. -/

namespace Sys2Proof.Proofs

open Sys2Proof Sys2Proof.Machine Sys2Proof.Safety Sys2Proof.Laws

/-! ### Bytes and words written and read -/

theorem byteOf_toNat {n : Nat} (h : n < 256) : (byteOf n).toNat = n := by
  simp only [byteOf, BitVec.toNat_ofNat]
  omega

theorem u16_lt (hi lo : Byte) : u16 hi lo < 65536 := by
  have := hi.isLt
  have := lo.isLt
  unfold u16
  omega

/-- A word's two bytes stand for its signed value. -/
theorem be16Int_signed16 {n : Nat} (h : n < 65536) : be16Int (signed16 n) = be16 n := by
  have hvalue : (signed16 n % 65536).toNat = n := by
    unfold signed16
    split <;> omega
  rw [be16Int, hvalue]

theorem rd8_byteOf {n : Nat} (h : n < 256) (rest : List Byte) : rd8 (byteOf n :: rest) = .ok (n, rest) := by
  rw [rd8, byteOf_toNat h]

theorem rd16_be16 {n : Nat} (h : n < 65536) (rest : List Byte) : rd16 (be16 n ++ rest) = .ok (n, rest) := by
  show Except.ok (u16 (byteOf (n / 256)) (byteOf n), rest) = _
  rw [u16_be16 h]

theorem rdShape_byteOf {field n : Nat} {inRange : Nat → Bool} (h : n < 256) (hrange : inRange n = true)
    (rest : List Byte) : rdShape field inRange (byteOf n :: rest) = .ok (n, rest) := by
  rw [rdShape, rd8_byteOf h]
  dsimp only
  rw [if_pos hrange]

/-- A flag of 0 or 1 is sent as it is stored. -/
theorem bit_eq_byteOf {n : Nat} (h : n ≤ 1) : bit (n == 1) = byteOf n := by
  interval_cases n <;> rfl

/-! ### Reading step by step -/

theorem ok_bind {α β : Type} (a : α) (f : α → Except PutError β) : (Except.ok a >>= f) = f a := rfl

theorem ok_of_bind {α β : Type} {m : Except PutError α} {f : α → Except PutError β} {b : β}
    (h : (m >>= f) = .ok b) : ∃ a, m = .ok a ∧ f a = .ok b := by
  cases m with
  | error e => cases h
  | ok a => exact ⟨a, rfl, h⟩

theorem rdMany_flatMap {α β : Type} {rd : List Byte → Except PutError (α × List Byte)} {enc : β → List Byte}
    {value : β → α} (xs : List β) (h : ∀ x ∈ xs, ∀ rest, rd (enc x ++ rest) = .ok (value x, rest))
    (rest : List Byte) : rdMany rd xs.length (xs.flatMap enc ++ rest) = .ok (xs.map value, rest) := by
  induction xs with
  | nil => rfl
  | cons x xs ih =>
    rw [List.length_cons, List.flatMap_cons, List.append_assoc, rdMany, h x List.mem_cons_self]
    dsimp only
    rw [ih fun y hy => h y (List.mem_cons_of_mem x hy)]
    rfl

theorem rdMany_length {α : Type} {rd : List Byte → Except PutError (α × List Byte)} : ∀ {n : Nat} {bs : List Byte}
    {r : List α × List Byte}, rdMany rd n bs = .ok r → r.1.length = n
  | 0, bs, r, h => by
    cases h
    rfl
  | n + 1, bs, r, h => by
    unfold rdMany at h
    split at h
    · cases h
    · split at h
      · cases h
      · next hrest =>
        cases h
        exact congrArg (· + 1) (rdMany_length hrest)

theorem rdMany_all {α : Type} {rd : List Byte → Except PutError (α × List Byte)} {P : α → Prop}
    (hread : ∀ bs r, rd bs = .ok r → P r.1) : ∀ {n : Nat} {bs : List Byte} {r : List α × List Byte},
    rdMany rd n bs = .ok r → ∀ x ∈ r.1, P x
  | 0, bs, r, h => by
    cases h
    exact fun x hx => absurd hx List.not_mem_nil
  | n + 1, bs, r, h => by
    unfold rdMany at h
    split at h
    · cases h
    · next hfirst =>
      split at h
      · cases h
      · next hrest =>
        cases h
        exact List.forall_mem_cons.2 ⟨hread _ _ hfirst, rdMany_all hread hrest⟩

theorem rdPart_some {α β : Type} {rd : List Byte → Except PutError (α × List Byte)} {enc : β → List Byte} {x : β}
    {v : α} {rest : List Byte} (h : rd (enc x ++ rest) = .ok (v, rest)) :
    rdPart 1 rd (enc x ++ rest) = .ok (some v, rest) := by
  rw [rdPart, if_pos rfl, h]

/-- A part and its flag are read back (R50). -/
theorem rdShape_partBytes {α β γ : Type} {field : Nat} {rd : List Byte → Except PutError (α × List Byte)}
    {enc : β → List Byte} {store : α → β} (part : Option α)
    (h : ∀ v ∈ part, ∀ rest, rd (enc (store v) ++ rest) = .ok (v, rest)) (rest : List Byte)
    (k : Option α × List Byte → Except PutError γ) :
    (rdShape field isFlag (partBytes enc (part.map store) ++ rest) >>= fun x => rdPart x.1 rd x.2 >>= k) =
      k (part, rest) := by
  cases part with
  | none =>
    have hflag : rdShape field isFlag (partBytes enc (none : Option β) ++ rest) = .ok (0, rest) := rfl
    rw [Option.map_none, hflag]
    rfl
  | some v =>
    have hflag : rdShape field isFlag (partBytes enc (some (store v)) ++ rest) = .ok (1, enc (store v) ++ rest) := rfl
    rw [Option.map_some, hflag, ok_bind, rdPart_some (h v rfl rest), ok_bind]

/-! ### What a stored record's fields keep to -/

structure InputFits (d : RawInput) : Prop where
  kind : d.kind = 1 ∨ d.kind = 2
  qual : d.kind = 1 → d.qual < 256
  offset : d.kind = 2 → d.offset < 65536
  gain : d.gain < 65536
  notify : d.notify ≤ 1

structure OutputFits (d : RawOutput) : Prop where
  kind : d.kind = 3
  initial : d.initial ≤ 1
  notify : d.notify ≤ 1

structure CornerFits (c : CornerDef) : Prop where
  landed : c.landed < 256
  locked : c.locked < 256
  unlocked : c.unlocked < 256

structure SizeFits (z : RawSize) : Prop where
  position : z.position < 256
  out20 : z.out20 < 256
  out40 : z.out40 < 256
  out45 : z.out45 < 256
  tolerance : z.tolerance < 256
  sizeMs : z.sizeMs < 65536

structure FlipFits (f : RawFlip) : Prop where
  upOut : f.upOut < 256
  downOut : f.downOut < 256
  flipMs : f.flipMs < 65536

structure GroupFits (g : RawGroup) : Prop where
  role : g.role ≤ 1
  count : g.corners.length = 4 ∨ g.corners.length = 8
  corners : ∀ c ∈ g.corners, CornerFits c
  lockOut : g.lockOut < 256
  unlockOut : g.unlockOut < 256
  lockMs : g.lockMs < 65536
  requireSlack : g.requireSlack ≤ 1
  size : ∀ z ∈ g.size, SizeFits z
  flip : ∀ f ∈ g.flip, FlipFits f

structure RecordFits (r : RawProfile) : Prop where
  typeCode : r.typeCode < 65536
  inputCount : r.inputs.length ≤ 24
  outputCount : r.outputs.length ≤ 16
  base : r.base < 256
  inputs : ∀ d ∈ r.inputs, InputFits d
  outputs : ∀ d ∈ r.outputs, OutputFits d
  maxAgeMs : r.maxAgeMs < 65536
  missLimit : r.missLimit < 256
  policy : r.policy ≤ 3
  retryMs : r.retryMs < 65536
  group : ∀ g ∈ r.group, GroupFits g

/-! ### A stored record written and read -/

/-- An input with the fields that its kind does not use at 0. -/
def usedInput (d : RawInput) : RawInput :=
  if d.kind = 2 then { d with qual := 0 } else { d with offset := 0, gain := 0 }

/-- A record with the fields that its inputs do not use at 0. -/
def usedFields (r : RawProfile) : RawProfile := { r with inputs := r.inputs.map usedInput }

theorem rdInput_written {d : RawInput} (h : InputFits d) (rest : List Byte) :
    rdInput (inputBytes (toInput d) ++ rest) = .ok (usedInput d, rest) := by
  obtain ⟨kind, qual, offset, gain, notify⟩ := d
  obtain ⟨hkind, hqual, hoffset, hgain, hnotify⟩ := h
  dsimp only at hkind hqual hoffset hgain hnotify
  have hbit : (bit (notify == 1)).toNat = notify := by
    rw [bit_eq_byteOf hnotify, byteOf_toNat (by omega)]
  rcases hkind with rfl | rfl
  · show Except.ok ((⟨1, (byteOf qual).toNat, 0, 0, (bit (notify == 1)).toNat⟩ : RawInput), rest) = _
    rw [hbit, byteOf_toNat (hqual rfl)]
    rfl
  · have hbytes : inputBytes (toInput ⟨2, qual, offset, gain, notify⟩) =
        [2, 0] ++ be16 offset ++ be16 gain ++ [bit (notify == 1)] := by
      rw [← be16Int_signed16 hgain]
      rfl
    rw [hbytes]
    show Except.ok ((⟨2, 0, u16 (byteOf (offset / 256)) (byteOf offset), u16 (byteOf (gain / 256)) (byteOf gain),
      (bit (notify == 1)).toNat⟩ : RawInput), rest) = _
    rw [hbit, u16_be16 (hoffset rfl), u16_be16 hgain]
    rfl

theorem rdOutput_written {d : RawOutput} (h : OutputFits d) (rest : List Byte) :
    rdOutput (outputBytes (toOutput d) ++ rest) = .ok (d, rest) := by
  obtain ⟨kind, initial, notify⟩ := d
  obtain ⟨hkind, hinitial, hnotify⟩ := h
  dsimp only at hkind hinitial hnotify
  subst hkind
  show Except.ok ((⟨3, (bit (initial == 1)).toNat, (bit (notify == 1)).toNat⟩ : RawOutput), rest) = _
  rw [bit_eq_byteOf hinitial, bit_eq_byteOf hnotify, byteOf_toNat (by omega), byteOf_toNat (by omega)]

theorem rdCorner_written {c : CornerDef} (h : CornerFits c) (rest : List Byte) :
    rdCorner (cornerBytes c ++ rest) = .ok (c, rest) := by
  show Except.ok ((⟨(byteOf c.landed).toNat, (byteOf c.locked).toNat, (byteOf c.unlocked).toNat⟩ : CornerDef), rest) = _
  rw [byteOf_toNat h.landed, byteOf_toNat h.locked, byteOf_toNat h.unlocked]

/-- The size part as it is stored (R49). -/
def storedSize (z : RawSize) : SizePart := ⟨z.position, z.out20, z.out40, z.out45, z.tolerance, z.sizeMs⟩

/-- The flip part as it is stored (R49). -/
def storedFlip (f : RawFlip) : FlipPart := ⟨f.upOut, f.downOut, f.flipMs⟩

theorem rdSize_written {z : RawSize} (h : SizeFits z) (rest : List Byte) :
    rdSize (sizeBytes (storedSize z) ++ rest) = .ok (z, rest) := by
  have hbytes : sizeBytes (storedSize z) ++ rest = byteOf z.position :: byteOf z.out20 :: byteOf z.out40 ::
      byteOf z.out45 :: byteOf z.tolerance :: (be16 z.sizeMs ++ rest) := rfl
  unfold rdSize
  rw [hbytes, rd8_byteOf h.position, ok_bind]
  dsimp only
  rw [rd8_byteOf h.out20, ok_bind]
  dsimp only
  rw [rd8_byteOf h.out40, ok_bind]
  dsimp only
  rw [rd8_byteOf h.out45, ok_bind]
  dsimp only
  rw [rd8_byteOf h.tolerance, ok_bind]
  dsimp only
  rw [rd16_be16 h.sizeMs, ok_bind]
  rfl

theorem rdFlip_written {f : RawFlip} (h : FlipFits f) (rest : List Byte) :
    rdFlip (flipBytes (storedFlip f) ++ rest) = .ok (f, rest) := by
  have hbytes : flipBytes (storedFlip f) ++ rest = byteOf f.upOut :: byteOf f.downOut :: (be16 f.flipMs ++ rest) := rfl
  unfold rdFlip
  rw [hbytes, rd8_byteOf h.upOut, ok_bind]
  dsimp only
  rw [rd8_byteOf h.downOut, ok_bind]
  dsimp only
  rw [rd16_be16 h.flipMs, ok_bind]
  rfl

theorem rdGroup_written {g : RawGroup} (h : GroupFits g) (rest : List Byte) :
    rdGroup (groupBytes (toGroup g) ++ rest) = .ok (g, rest) := by
  obtain ⟨hrole, hcount, hcorners, hlockOut, hunlockOut, hlockMs, hslack, hsize, hflip⟩ := h
  have hcode : groupCode (toGroup g).role = byteOf g.role := by
    obtain ⟨role, corners, lockOut, unlockOut, lockMs, slack, size, flip⟩ := g
    dsimp only at hrole
    interval_cases role <;> rfl
  have hbytes : groupBytes (toGroup g) ++ rest = byteOf g.role :: byteOf g.corners.length ::
      (g.corners.flatMap cornerBytes ++ (byteOf g.lockOut :: byteOf g.unlockOut :: (be16 g.lockMs ++
        (byteOf g.requireSlack :: (partBytes sizeBytes (g.size.map storedSize) ++
          (partBytes flipBytes (g.flip.map storedFlip) ++ rest)))))) := by
    unfold groupBytes
    rw [hcode, ← bit_eq_byteOf hslack]
    simp only [List.append_assoc, List.cons_append, List.nil_append]
    rfl
  have hcount' : g.corners.length < 256 ∧ (g.corners.length == 4 || g.corners.length == 8) = true := by
    rcases hcount with h | h <;> simp [h]
  unfold rdGroup
  rw [hbytes, rd8_byteOf (by omega), ok_bind]
  dsimp only
  rw [rdShape_byteOf hcount'.1 hcount'.2, ok_bind]
  dsimp only
  rw [rdMany_flatMap (enc := cornerBytes) (value := id) g.corners fun c hc => rdCorner_written (hcorners c hc),
    ok_bind, List.map_id]
  dsimp only
  rw [rd8_byteOf hlockOut, ok_bind]
  dsimp only
  rw [rd8_byteOf hunlockOut, ok_bind]
  dsimp only
  rw [rd16_be16 hlockMs, ok_bind]
  dsimp only
  rw [rd8_byteOf (by omega), ok_bind]
  dsimp only
  refine (rdShape_partBytes (store := storedSize) g.size (fun z hz => rdSize_written (hsize z hz)) _ _).trans ?_
  exact rdShape_partBytes (store := storedFlip) g.flip (fun f hf => rdFlip_written (hflip f hf)) rest _

/-- A stored record is written in field order, and read as the fields that it uses (R55, R211). -/
theorem rdProfile_written {r : RawProfile} (h : RecordFits r) :
    rdProfile (profileBytes (toProfile r)) = .ok (usedFields r, []) := by
  have hpolicy : policyCode (toPolicy r.policy) = byteOf r.policy := by
    obtain ⟨_, _, _, _, _, _, policy, _, _⟩ := r
    have hp : policy ≤ 3 := h.policy
    dsimp only
    interval_cases policy <;> rfl
  have hbytes : profileBytes (toProfile r) = be16 r.typeCode ++ (byteOf r.inputs.length :: byteOf r.outputs.length ::
      byteOf r.base :: (r.inputs.flatMap (fun d => inputBytes (toInput d)) ++
        (r.outputs.flatMap (fun d => outputBytes (toOutput d)) ++ (be16 r.maxAgeMs ++ (byteOf r.missLimit ::
          byteOf r.policy :: (be16 r.retryMs ++ (partBytes groupBytes (r.group.map toGroup) ++ []))))))) := by
    unfold profileBytes toProfile
    simp only [List.append_assoc, List.cons_append, List.nil_append, List.append_nil, List.length_map,
      List.flatMap_map, hpolicy]
  unfold rdProfile
  rw [hbytes, rd16_be16 h.typeCode, ok_bind]
  dsimp only
  rw [rdShape_byteOf (by have := h.inputCount; omega) (decide_eq_true h.inputCount), ok_bind]
  dsimp only
  rw [rdShape_byteOf (by have := h.outputCount; omega) (decide_eq_true h.outputCount), ok_bind]
  dsimp only
  rw [rd8_byteOf h.base, ok_bind]
  dsimp only
  rw [rdMany_flatMap r.inputs fun d hd => rdInput_written (h.inputs d hd), ok_bind]
  dsimp only
  rw [rdMany_flatMap (enc := fun d => outputBytes (toOutput d)) (value := id) r.outputs
    fun d hd => rdOutput_written (h.outputs d hd), ok_bind, List.map_id]
  dsimp only
  rw [rd16_be16 h.maxAgeMs, ok_bind]
  dsimp only
  rw [rd8_byteOf h.missLimit, ok_bind]
  dsimp only
  rw [rd8_byteOf (by have := h.policy; omega), ok_bind]
  dsimp only
  rw [rd16_be16 h.retryMs, ok_bind]
  dsimp only
  exact rdShape_partBytes (store := toGroup) r.group (fun g hg => rdGroup_written (h.group g hg)) [] _

end Sys2Proof.Proofs
end

section
/-! Profile records: what reading for shape and the checks of a record say of its fields (R50 to R52), and the round
trip of a stored record (R55, R211). -/

namespace Sys2Proof.Proofs

open Sys2Proof Sys2Proof.Machine Sys2Proof.Safety Sys2Proof.Laws

/-! ### What reading for shape says of a record (R50) -/

theorem rdShape_inRange {field : Nat} {inRange : Nat → Bool} {bs : List Byte} {r : Nat × List Byte}
    (h : rdShape field inRange bs = .ok r) : inRange r.1 = true := by
  unfold rdShape at h
  split at h
  · split at h
    · next hrange =>
      cases h
      exact hrange
    · cases h
  · cases h

theorem rd16_lt {bs : List Byte} {r : Nat × List Byte} (h : rd16 bs = .ok r) : r.1 < 65536 := by
  unfold rd16 at h
  split at h
  · cases h
    exact u16_lt _ _
  · cases h

theorem rdInput_gain (bs : List Byte) (r : RawInput × List Byte) (h : rdInput bs = .ok r) : r.1.gain < 65536 := by
  unfold rdInput at h
  split at h
  · cases h
    exact u16_lt _ _
  · cases h

theorem rdPart_ok {α : Type} {flag : Nat} {rd : List Byte → Except PutError (α × List Byte)} {bs : List Byte}
    {r : Option α × List Byte} (h : rdPart flag rd bs = .ok r) : ∀ x ∈ r.1, ∃ rest, rd bs = .ok (x, rest) := by
  unfold rdPart at h
  split at h
  · split at h
    · next hrd =>
      cases h
      rintro x ⟨⟩
      exact ⟨_, hrd⟩
    · cases h
  · cases h
    rintro x ⟨⟩

theorem rdGroup_count {bs : List Byte} {r : RawGroup × List Byte} (h : rdGroup bs = .ok r) :
    r.1.corners.length = 4 ∨ r.1.corners.length = 8 := by
  unfold rdGroup at h
  obtain ⟨⟨role, b1⟩, -, h⟩ := ok_of_bind h
  obtain ⟨⟨count, b2⟩, hcount, h⟩ := ok_of_bind h
  obtain ⟨⟨corners, b3⟩, hcorners, h⟩ := ok_of_bind h
  obtain ⟨⟨lockOut, b4⟩, -, h⟩ := ok_of_bind h
  obtain ⟨⟨unlockOut, b5⟩, -, h⟩ := ok_of_bind h
  obtain ⟨⟨lockMs, b6⟩, -, h⟩ := ok_of_bind h
  obtain ⟨⟨slack, b7⟩, -, h⟩ := ok_of_bind h
  obtain ⟨⟨sizeFlag, b8⟩, -, h⟩ := ok_of_bind h
  obtain ⟨⟨size, b9⟩, -, h⟩ := ok_of_bind h
  obtain ⟨⟨flipFlag, b10⟩, -, h⟩ := ok_of_bind h
  obtain ⟨⟨flip, b11⟩, -, h⟩ := ok_of_bind h
  cases h
  have hlength : corners.length = count := rdMany_length hcorners
  have hrange := rdShape_inRange hcount
  rw [hlength]
  simpa using hrange

/-- What reading for shape alone says of a record. -/
structure ShapeRead (r : RawProfile) : Prop where
  typeCode : r.typeCode < 65536
  inputCount : r.inputs.length ≤ 24
  outputCount : r.outputs.length ≤ 16
  gain : ∀ d ∈ r.inputs, d.gain < 65536
  corners : ∀ g ∈ r.group, g.corners.length = 4 ∨ g.corners.length = 8

theorem rdProfile_shape {bs : List Byte} {r : RawProfile × List Byte} (h : rdProfile bs = .ok r) : ShapeRead r.1 := by
  unfold rdProfile at h
  obtain ⟨⟨typeCode, b1⟩, htype, h⟩ := ok_of_bind h
  obtain ⟨⟨inputCount, b2⟩, hinputs, h⟩ := ok_of_bind h
  obtain ⟨⟨outputCount, b3⟩, houtputs, h⟩ := ok_of_bind h
  obtain ⟨⟨base, b4⟩, -, h⟩ := ok_of_bind h
  obtain ⟨⟨inputs, b5⟩, hin, h⟩ := ok_of_bind h
  obtain ⟨⟨outputs, b6⟩, hout, h⟩ := ok_of_bind h
  obtain ⟨⟨age, b7⟩, -, h⟩ := ok_of_bind h
  obtain ⟨⟨limit, b8⟩, -, h⟩ := ok_of_bind h
  obtain ⟨⟨policy, b9⟩, -, h⟩ := ok_of_bind h
  obtain ⟨⟨retry, b10⟩, -, h⟩ := ok_of_bind h
  obtain ⟨⟨groupFlag, b11⟩, -, h⟩ := ok_of_bind h
  obtain ⟨⟨group, b12⟩, hgroup, h⟩ := ok_of_bind h
  cases h
  have hinLength : inputs.length = inputCount := rdMany_length hin
  have houtLength : outputs.length = outputCount := rdMany_length hout
  have hinRange : inputCount ≤ 24 := of_decide_eq_true (rdShape_inRange hinputs)
  have houtRange : outputCount ≤ 16 := of_decide_eq_true (rdShape_inRange houtputs)
  exact ⟨rd16_lt htype, hinLength.trans_le hinRange, houtLength.trans_le houtRange,
    rdMany_all (P := fun d => d.gain < 65536) rdInput_gain hin, fun g hg => by
      obtain ⟨rest, hread⟩ := rdPart_ok hgroup g hg
      exact rdGroup_count hread⟩

theorem readShape_ok {payload : List Byte} {r : RawProfile} :
    readShape payload = .ok r ↔ rdProfile payload = .ok (r, []) := by
  unfold readShape
  split
  · next heq => simp [heq]
  · next heq => simp [heq]
  · next heq => simp [heq]

/-! ### What the checks say of a record (R51, R52) -/

/-- All of a list of checks pass. -/
def Pass (cs : List FieldCheck) : Prop := ∀ c ∈ cs, c.2.2 = true

theorem pass_append {xs ys : List FieldCheck} : Pass (xs ++ ys) ↔ Pass xs ∧ Pass ys := List.forall_mem_append

theorem pass_cons {field element : Nat} {ok : Bool} {cs : List FieldCheck} :
    Pass ((field, element, ok) :: cs) ↔ ok = true ∧ Pass cs := List.forall_mem_cons

theorem pass_nil : Pass [] := fun _ h => absurd h List.not_mem_nil

theorem pass_eachElement {α : Type} {field : Nat} {ok : α → Bool} {xs : List α} : ∀ {n : Nat},
    Pass (eachElement field ok n xs) ↔ ∀ x ∈ xs, ok x = true := by
  induction xs with
  | nil => exact ⟨fun _ _ h => absurd h List.not_mem_nil, fun _ => pass_nil⟩
  | cons x xs ih =>
    intro n
    rw [eachElement, pass_cons, ih, List.forall_mem_cons]

/-- A record is accepted exactly when it reads for shape and passes every check. -/
theorem readProfile_ok {payload : List Byte} {p : Profile} : readProfile payload = .ok p ↔
    ∃ r, rdProfile payload = .ok (r, []) ∧ Pass (profileChecks r) ∧ toProfile r = p := by
  have hnone : ∀ r, (profileChecks r).find? (fun c => !c.2.2) = none ↔ Pass (profileChecks r) := fun r => by
    simp [List.find?_eq_none, Pass]
  unfold readProfile
  constructor
  · intro h
    split at h
    · cases h
    · next r hshape =>
      split at h
      · cases h
      · next hfind =>
        cases h
        exact ⟨r, readShape_ok.1 hshape, (hnone r).1 hfind, rfl⟩
  · rintro ⟨r, hread, hpass, rfl⟩
    rw [readShape_ok.2 hread]
    dsimp only
    rw [(hnone r).2 hpass]

theorem isDinIndex_lt {inputs : List RawInput} {i : Nat} (h : isDinIndex inputs i = true) : i < inputs.length := by
  by_contra hge
  simp [isDinIndex, List.getElem?_eq_none (Nat.not_lt.1 hge)] at h

theorem isAinIndex_lt {inputs : List RawInput} {i : Nat} (h : isAinIndex inputs i = true) : i < inputs.length := by
  by_contra hge
  simp [isAinIndex, List.getElem?_eq_none (Nat.not_lt.1 hge)] at h

theorem outputCheck_lt {outputs : List RawOutput} {named : List Nat} {field j : Nat}
    (h : (outputCheck outputs named field j).2.2 = true) : j < outputs.length := by
  by_contra hge
  simp [outputCheck, List.getElem?_eq_none (Nat.not_lt.1 hge)] at h

theorem within_le {lo hi n : Nat} (h : within lo hi n = true) : n ≤ hi := by
  simp only [within, Bool.and_eq_true, decide_eq_true_eq] at h
  exact h.2

theorem pass_corners {inputs : List RawInput} {cs : List CornerDef} : ∀ {n : Nat} {locks names : List Nat},
    Pass (cornerChecks inputs n locks names cs) → ∀ c ∈ cs,
      c.landed < inputs.length ∧ c.locked < inputs.length ∧ c.unlocked < inputs.length := by
  induction cs with
  | nil => exact fun _ _ h => absurd h List.not_mem_nil
  | cons c cs ih =>
    intro n locks names h
    rw [cornerChecks, pass_cons, pass_cons, pass_cons] at h
    obtain ⟨hlanded, hlocked, hunlocked, hrest⟩ := h
    rw [Bool.and_eq_true] at hlanded hlocked hunlocked
    exact List.forall_mem_cons.2
      ⟨⟨isDinIndex_lt hlanded.1, isDinIndex_lt hlocked.1, isDinIndex_lt hunlocked.1⟩, ih hrest⟩

section Checks

variable {r : RawProfile}

theorem sizeFits_of_pass {named : List Nat} {z : RawSize} (hin : r.inputs.length ≤ 24) (hout : r.outputs.length ≤ 16)
    (h : Pass (sizeChecks r named z)) : SizeFits z := by
  unfold sizeChecks outputCheck at h
  simp only [pass_cons] at h
  obtain ⟨hposition, hout20, hout40, hout45, htolerance, hsize, -⟩ := h
  have := isAinIndex_lt hposition
  have := outputCheck_lt (field := 29) hout20
  have := outputCheck_lt (field := 30) hout40
  have := outputCheck_lt (field := 31) hout45
  have := within_le htolerance
  have := within_le hsize
  constructor <;> omega

theorem flipFits_of_pass {named : List Nat} {f : RawFlip} (hout : r.outputs.length ≤ 16)
    (h : Pass (flipChecks r named f)) : FlipFits f := by
  unfold flipChecks outputCheck at h
  simp only [pass_cons] at h
  obtain ⟨hup, hdown, hflip, -⟩ := h
  have := outputCheck_lt (field := 35) hup
  have := outputCheck_lt (field := 36) hdown
  have := within_le hflip
  constructor <;> omega

theorem groupFits_of_pass {g : RawGroup} (hin : r.inputs.length ≤ 24) (hout : r.outputs.length ≤ 16)
    (hcount : g.corners.length = 4 ∨ g.corners.length = 8) (h : Pass (groupChecks r g)) : GroupFits g := by
  unfold groupChecks outputCheck at h
  simp only [pass_append, pass_cons] at h
  obtain ⟨⟨⟨⟨⟨hrole, -⟩, hcorners⟩, hlock, hunlock, hlockMs, hslack, -⟩, hsize⟩, hflip⟩ := h
  have hlock' := outputCheck_lt (field := 23) hlock
  have hunlock' := outputCheck_lt (field := 24) hunlock
  have hlockMs' := within_le hlockMs
  exact {
    role := of_decide_eq_true hrole
    count := hcount
    corners := fun c hc => by
      obtain ⟨hlanded, hlocked, hunlocked⟩ := pass_corners hcorners c hc
      constructor <;> omega
    lockOut := by omega
    unlockOut := by omega
    lockMs := by omega
    requireSlack := of_decide_eq_true hslack
    size := fun z hz => by
      rw [Option.mem_def.1 hz] at hsize
      exact sizeFits_of_pass hin hout hsize
    flip := fun f hf => by
      rw [Option.mem_def.1 hf] at hflip
      exact flipFits_of_pass hout hflip }

theorem recordFits_of_pass (hshape : ShapeRead r) (h : Pass (profileChecks r)) : RecordFits r := by
  obtain ⟨htype, hin, hout, hgain, hcorners⟩ := hshape
  unfold profileChecks at h
  simp only [pass_append, pass_cons, pass_eachElement] at h
  obtain ⟨⟨⟨⟨⟨⟨⟨⟨⟨⟨-, hbase, -⟩, hkind⟩, hqual⟩, hoffset⟩, hnotify⟩, hokind⟩, hinitial⟩, honotify⟩, hage, hlimit,
    hpolicy, hretry, -⟩, hgroup⟩ := h
  rw [Bool.and_eq_true] at hbase
  have hbase' := within_le hbase.1
  have hage' := within_le hage
  have hlimit' := within_le hlimit
  have hretry' := within_le hretry
  exact {
    typeCode := htype
    inputCount := hin
    outputCount := hout
    base := by omega
    inputs := fun d hd => {
      kind := by simpa using hkind d hd
      qual := fun hdin => by
        have hwithin := hqual d hd
        rw [hdin] at hwithin
        have := within_le (show within 1 15 d.qual = true from hwithin)
        omega
      offset := fun hain => by
        have hle := hoffset d hd
        rw [hain] at hle
        have : d.offset ≤ 4095 := of_decide_eq_true hle
        omega
      gain := hgain d hd
      notify := of_decide_eq_true (hnotify d hd) }
    outputs := fun d hd => ⟨beq_iff_eq.1 (hokind d hd), of_decide_eq_true (hinitial d hd),
      of_decide_eq_true (honotify d hd)⟩
    maxAgeMs := by omega
    missLimit := by omega
    policy := of_decide_eq_true hpolicy
    retryMs := by omega
    group := fun g hg => by
      rw [Option.mem_def.1 hg] at hgroup
      exact groupFits_of_pass hin hout (hcorners g hg) hgroup }

end Checks

/-! ### The fields that a record uses -/

theorem usedInput_kind (d : RawInput) : (usedInput d).kind = d.kind := by
  unfold usedInput
  split <;> rfl

theorem toInput_usedInput (d : RawInput) : toInput (usedInput d) = toInput d := by
  unfold toInput
  rw [usedInput_kind]
  unfold usedInput
  by_cases hkind : d.kind = 2
  · simp only [if_pos hkind]
  · simp only [if_neg hkind]

theorem toProfile_usedFields (r : RawProfile) : toProfile (usedFields r) = toProfile r := by
  unfold toProfile usedFields
  dsimp only
  rw [List.map_map, show toInput ∘ usedInput = toInput from funext toInput_usedInput]

theorem eachElement_usedInput {field : Nat} {ok : RawInput → Bool} (hok : ∀ d, ok (usedInput d) = ok d)
    (ds : List RawInput) : ∀ n, eachElement field ok n (ds.map usedInput) = eachElement field ok n ds := by
  induction ds with
  | nil => exact fun _ => rfl
  | cons d ds ih =>
    intro n
    rw [List.map_cons, eachElement, eachElement, hok, ih]

theorem isDinIndex_usedInput (ds : List RawInput) : isDinIndex (ds.map usedInput) = isDinIndex ds := by
  funext i
  simp only [isDinIndex, List.getElem?_map, Option.map_map, Function.comp_def, usedInput_kind]

theorem isAinIndex_usedInput (ds : List RawInput) : isAinIndex (ds.map usedInput) = isAinIndex ds := by
  funext i
  simp only [isAinIndex, List.getElem?_map, Option.map_map, Function.comp_def, usedInput_kind]

theorem cornerChecks_usedInput (ds : List RawInput) (cs : List CornerDef) : ∀ n locks names,
    cornerChecks (ds.map usedInput) n locks names cs = cornerChecks ds n locks names cs := by
  induction cs with
  | nil => exact fun _ _ _ => rfl
  | cons c cs ih =>
    intro n locks names
    simp only [cornerChecks, ih, isDinIndex_usedInput]

theorem groupChecks_usedFields (r : RawProfile) : groupChecks (usedFields r) = groupChecks r := by
  have hsize : sizeChecks (usedFields r) = sizeChecks r := by
    funext named z
    unfold sizeChecks usedFields
    dsimp only
    rw [isAinIndex_usedInput]
  funext g
  unfold groupChecks
  rw [hsize]
  unfold usedFields
  dsimp only
  rw [cornerChecks_usedInput]
  rfl

/-- The checks look at no field that a record's inputs do not use. -/
theorem profileChecks_usedFields (r : RawProfile) : profileChecks (usedFields r) = profileChecks r := by
  have hqual : ∀ d : RawInput, ((usedInput d).kind != 1 || within 1 15 (usedInput d).qual) =
      (d.kind != 1 || within 1 15 d.qual) := fun d => by
    unfold usedInput
    by_cases hkind : d.kind = 2 <;> simp [hkind]
  have hoffset : ∀ d : RawInput, ((usedInput d).kind != 2 || decide ((usedInput d).offset ≤ 4095)) =
      (d.kind != 2 || decide (d.offset ≤ 4095)) := fun d => by
    unfold usedInput
    by_cases hkind : d.kind = 2 <;> simp [hkind]
  have hnotify : ∀ d : RawInput, isFlag (usedInput d).notify = isFlag d.notify := fun d => by
    unfold usedInput
    split <;> rfl
  unfold profileChecks
  rw [groupChecks_usedFields]
  unfold usedFields
  dsimp only
  rw [List.length_map, eachElement_usedInput fun d => by rw [usedInput_kind], eachElement_usedInput hqual,
    eachElement_usedInput hoffset, eachElement_usedInput hnotify]

/-- Settles O30. -/
theorem profileRecordRoundTrip : Obligations.ProfileRecordRoundTrip := by
  intro payload p h
  obtain ⟨r, hread, hpass, rfl⟩ := readProfile_ok.1 h
  have hwritten := rdProfile_written (recordFits_of_pass (rdProfile_shape hread) hpass)
  refine readProfile_ok.2 ⟨usedFields r, hwritten, ?_, toProfile_usedFields r⟩
  rwa [profileChecks_usedFields]

end Sys2Proof.Proofs
end

section
/-! A good SCAN_ANSWER (R30): the output writer's part (R91 to R93, R146) and the samples (R67 to R69, R201). -/

namespace Sys2Proof.Proofs

open Sys2Proof Sys2Proof.Machine Sys2Proof.Safety Sys2Proof.Laws

/-! ### The record -/

section Good

variable {s : State} {k : Stn} {x : Slot} {rx : List RxByte} {a : ScanReport}

/-- The record of a station after a good answer (R30). -/
def onlineRecord (r : StationRec) : StationRec :=
  { r with state := .online, misses := 0, limitNoted := false, lastCause := .good }

/-- The state after the report of the record's move. -/
def scanReported (k : Stn) (s : State) : State :=
  reportScanned k (stateOf s k) (updStation k onlineRecord s)

theorem scanGood_eq (k : Stn) (a : ScanReport) (s : State) :
    scanGood k a s = answerSamples k a (answerOutputs k a.echo a.outputsSafe (scanReported k s)) := rfl

theorem scanReported_inner {P : State → Prop} (h : Inner P) (hs : P (updStation k onlineRecord s)) :
    P (scanReported k s) := reportScanned_inner h _ _ _ hs

theorem scanReported_stations :
    (scanReported k s).stations = s.stations.set k (onlineRecord (s.stations.get k)) :=
  scanReported_inner (inner_stations _) rfl

theorem scanReported_profileOf : profileOf (scanReported k s) k = profileOf s k := by
  have hprofiles : (scanReported k s).profiles = s.profiles :=
    scanReported_inner (inner_profiles _) rfl
  exact (profileOf_congr (s := updStation k onlineRecord s) scanReported_stations hprofiles k).trans
    (sameStation_updStation ⟨rfl, rfl⟩).profile

theorem scanReported_length : (scanReported k s).points.length = s.points.length :=
  scanReported_inner (inner_length _) rfl

/-- A station already ONLINE makes no report (R25). -/
theorem scanReported_online (h : (s.stations.get k).state = .online) :
    scanReported k s = updStation k onlineRecord s := by
  have hsame : stateOf (updStation k onlineRecord s) k = stateOf s k := by
    rw [stateOf, updStation, ByStn.get_set_self]
    exact h.symm
  unfold scanReported reportScanned
  dsimp only
  rw [if_pos hsame]

end Good

/-! ### The output writer's part (R91 to R93) -/

/-- The record with the answer's echo, its batch acknowledged where the echo is its number (R91). -/
def echoedOut (echo : BitVec 4) (o : OutState) : OutState :=
  match o.inFlight with
  | some b =>
    if b.number = echo then { o with lastEcho := echo, inFlight := none, lastAck := echo }
    else { o with lastEcho := echo }
  | none => { o with lastEcho := echo }

/-- The batch that an echo acknowledges. -/
def ackedBatch (echo : BitVec 4) (o : OutState) : Option Batch := o.inFlight.filter (fun b => b.number = echo)

theorem ackOut_eq (echo : BitVec 4) (o : OutState) : ackOut echo o = (echoedOut echo o, ackedBatch echo o) := by
  unfold ackOut echoedOut ackedBatch
  dsimp only
  cases o.inFlight with
  | none => rfl
  | some b =>
    dsimp only
    by_cases hb : b.number = echo
    · rw [if_pos hb, if_pos hb, Option.filter_some, if_pos (decide_eq_true hb), hb]
    · rw [if_neg hb, if_neg hb, Option.filter_some, if_neg (by simpa using hb)]

theorem resyncOut_eq (o : OutState) : resyncOut o =
    { o with
      list := ((indexed 0 o.intended).drop 8).map (fun w => .write w.1 w.2)
      inFlight := if o.intended = [] then none else some ⟨nextNumber o, (indexed 0 o.intended).take 8⟩
      lastAssigned := if o.intended = [] then o.lastAssigned else nextNumber o } := by
  unfold resyncOut
  cases hintended : o.intended with
  | nil => rfl
  | cons w ws => simp [indexed, batchLimit]

section Outputs

variable {s : State} {k : Stn} {echo : BitVec 4} {safe : Bool}

theorem reportSettled_state (k : Stn) (outs : List Nat) (s : State) : reportSettled k outs s =
    { s with points := (reportSettled k outs s).points, port := (reportSettled k outs s).port } := by
  unfold reportSettled
  split
  · rw [commitQuiet_state]
  · rfl

theorem resync_state (k : Stn) (s : State) : resync k s =
    { s with
      outputs := s.outputs.set k (resyncOut (s.outputs.get k))
      points := (resync k s).points
      port := (resync k s).port } := by
  unfold resync reportResync
  split
  · rw [commitQuiet_state]
    rfl
  · rfl

/-- The operations after a batch's acknowledgement (R146). -/
def notedOp (k : Stn) (b : Batch) (gp : Option GroupPart) (r : OpRec) : OpRec :=
  if r.station = k && r.phase == .queued &&
      ((gp.bind (driveOutput · r.kind)).map (fun j => b.writes.contains (j, 1))).getD false
  then { r with phase := .driving } else r

/-- One group's operation at the acknowledgement of a batch. -/
def noteOne (k : Stn) (b : Batch) (s : State) (g : Group) : State :=
  match s.ops.get g with
  | some r =>
    let drive := (profileOf s k).bind (·.group) |>.bind (driveOutput · r.kind)
    if r.station = k && r.phase == .queued && (drive.map (fun j => b.writes.contains (j, 1))).getD false then
      setOp g (some { r with phase := .driving }) s
    else s
  | none => s

theorem noteOne_eq (k : Stn) (b : Batch) (s : State) (g : Group) : noteOne k b s g =
    { s with ops := s.ops.set g ((s.ops.get g).map (notedOp k b ((profileOf s k).bind (·.group)))) } := by
  have hkeep : ∀ r, s.ops.get g = r → { s with ops := s.ops.set g r } = s := fun r hr => by
    rw [← hr]
    cases g <;> rfl
  unfold noteOne
  cases hop : s.ops.get g with
  | none => exact (hkeep _ hop).symm
  | some r =>
    dsimp only [Option.map_some]
    unfold notedOp
    split
    · rfl
    · exact (hkeep _ hop).symm

/-- An acknowledged batch drives the operations whose write it held, and changes nothing else (R146). -/
theorem noteBatch_eq (k : Stn) (b : Batch) (s : State) : noteBatch k b s =
    { s with
      ops := ⟨s.ops.a.map (notedOp k b ((profileOf s k).bind (·.group))),
        s.ops.b.map (notedOp k b ((profileOf s k).bind (·.group)))⟩ } := by
  show noteOne k b (noteOne k b s .a) .b = _
  rw [noteOne_eq, noteOne_eq]
  rfl

theorem noteBatch_ops (k : Stn) (b : Batch) (s : State) (g : Group) :
    (noteBatch k b s).ops.get g = (s.ops.get g).map (notedOp k b ((profileOf s k).bind (·.group))) := by
  rw [noteBatch_eq]
  cases g <;> rfl

/-- The acknowledgement's reports and phases, where a batch is acknowledged. -/
def answerAcked (k : Stn) (acked : Option Batch) (list : List Entry) (s : State) : State :=
  match acked with
  | some b => noteBatch k b (reportSettled k (settledOutputs b list) s)
  | none => s

theorem answerOutputs_eq (k : Stn) (echo : BitVec 4) (safe : Bool) (s : State) : answerOutputs k echo safe s =
    if safe then resync k (answerAcked k (ackedBatch echo (s.outputs.get k)) (echoedOut echo (s.outputs.get k)).list
      (updOut k (fun _ => echoedOut echo (s.outputs.get k)) s))
    else answerAcked k (ackedBatch echo (s.outputs.get k)) (echoedOut echo (s.outputs.get k)).list
      (updOut k (fun _ => echoedOut echo (s.outputs.get k)) s) := by
  unfold answerOutputs outOf
  rw [ackOut_eq]
  rfl

theorem answerAcked_state (k : Stn) (acked : Option Batch) (list : List Entry) (s : State) :
    answerAcked k acked list s =
      { s with
        ops := (answerAcked k acked list s).ops
        points := (answerAcked k acked list s).points
        port := (answerAcked k acked list s).port } := by
  unfold answerAcked
  split
  · rw [noteBatch_eq, reportSettled_state]
  · rfl

theorem answerAcked_ops (k : Stn) (acked : Option Batch) (list : List Entry) (s : State) (g : Group) :
    (answerAcked k acked list s).ops.get g = match acked with
      | some b => (s.ops.get g).map (notedOp k b ((profileOf s k).bind (·.group)))
      | none => s.ops.get g := by
  unfold answerAcked
  split
  · next b =>
    have hprofile : ∀ outs, profileOf (reportSettled k outs s) k = profileOf s k := fun outs => by
      rw [reportSettled_state]
      rfl
    have hops : ∀ outs, (reportSettled k outs s).ops = s.ops := fun outs => by rw [reportSettled_state]
    rw [noteBatch_ops, hprofile, hops]
  · rfl

/-- The output writer's part touches its record, the operations, the points and the messages. -/
theorem answerOutputs_state (k : Stn) (echo : BitVec 4) (safe : Bool) (s : State) : answerOutputs k echo safe s =
    { s with
      outputs := s.outputs.set k
        (if safe then resyncOut (echoedOut echo (s.outputs.get k)) else echoedOut echo (s.outputs.get k))
      ops := (answerAcked k (ackedBatch echo (s.outputs.get k)) (echoedOut echo (s.outputs.get k)).list
        (updOut k (fun _ => echoedOut echo (s.outputs.get k)) s)).ops
      points := (answerOutputs k echo safe s).points
      port := (answerOutputs k echo safe s).port } := by
  have heq := answerOutputs_eq k echo safe s
  cases safe with
  | false =>
    rw [if_neg Bool.false_ne_true] at heq
    rw [heq, answerAcked_state]
    rfl
  | true =>
    rw [if_pos rfl] at heq
    rw [heq, resync_state, answerAcked_state]
    simp

end Outputs

end Sys2Proof.Proofs
end

section
/-! A good SCAN_ANSWER whole (R30, R67 to R69, R91 to R93, R146, R201). -/

namespace Sys2Proof.Proofs

open Sys2Proof Sys2Proof.Machine Sys2Proof.Safety Sys2Proof.Laws

/-! ### Settled points (R73, R91) -/

/-- An output's point that is neither PENDING nor to be written out. -/
def SettledPoint (q : Point) : Prop := q.writeOut = false ∧ q.quality ≠ .pending

theorem settledPoint_settled (q : Point) : SettledPoint (settledPoint q) := by
  refine ⟨rfl, ?_⟩
  show (if q.quality = .pending then Quality.good else q.quality) ≠ .pending
  split
  · decide
  · next h => exact h

/-- The points of an image settled at the outputs `outs` of a window. -/
def settleAll (p : Profile) (outs : List Nat) (pts : List Point) : List Point :=
  outs.foldl (fun pts j => setPoint (outputPoint p j) settledPoint pts) pts

theorem settleAll_keeps (p : Profile) (i : Nat) (outs : List Nat) : ∀ pts : List Point,
    SettledPoint (pts.getD i Point.unmapped) → SettledPoint ((settleAll p outs pts).getD i Point.unmapped) := by
  induction outs with
  | nil => exact fun _ h => h
  | cons j outs ih =>
    intro pts h
    refine ih (setPoint (outputPoint p j) settledPoint pts) ?_
    rw [getD_setPoint]
    split
    · exact settledPoint_settled _
    · exact h

theorem settleAll_settles {p : Profile} {j : Nat} (outs : List Nat) : ∀ pts : List Point, j ∈ outs →
    outputPoint p j < pts.length → SettledPoint ((settleAll p outs pts).getD (outputPoint p j) Point.unmapped) := by
  induction outs with
  | nil => exact fun _ h => absurd h List.not_mem_nil
  | cons j' outs ih =>
    intro pts hj hinside
    rcases List.mem_cons.1 hj with rfl | hj
    · refine settleAll_keeps p _ outs (setPoint (outputPoint p j) settledPoint pts) ?_
      rw [getD_setPoint, if_pos ⟨rfl, hinside⟩]
      exact settledPoint_settled _
    · exact ih (setPoint (outputPoint p j') settledPoint pts) hj (by rwa [length_setPoint])

theorem reportSettled_settles {s : State} {k : Stn} {p : Profile} {outs : List Nat} {j : Nat}
    (hp : profileOf s k = some p) (hj : j ∈ outs) (hinside : outputPoint p j < s.points.length) :
    SettledPoint (pointAt (reportSettled k outs s) (outputPoint p j)) := by
  have hsettled := settleAll_settles outs s.points hj hinside
  unfold reportSettled
  rw [hp]
  dsimp only
  rw [pointAt_commitQuiet (length_foldl_setPoint _ _ _ _)]
  unfold SettledPoint
  rw [(flagged_fields _ _).2.1, (flagged_fields _ _).2.2]
  exact hsettled

/-! ### Samples (R67 to R69) -/

theorem takeDin_eq (qual : Nat) (raw : Word) (q : Point) : takeDin qual raw q =
    if 1 < raw.toNat then { q with raw := some raw }
    else if q.quality = .waiting ∨ q.quality = .stale ∨
        (q.quality = .good ∧ q.value ≠ raw.toNat ∧ qual ≤ q.counter + 1) then
      { q with raw := some raw, age := 0, value := raw.toNat, counter := 0, quality := .good }
    else if q.quality = .good then
      { q with raw := some raw, age := 0, counter := if q.value = raw.toNat then 0 else q.counter + 1 }
    else { q with raw := some raw, age := 0 } := by
  unfold takeDin
  dsimp only
  by_cases hraw : 1 < raw.toNat
  · rw [if_neg (Nat.not_le.2 hraw), if_pos hraw]
  · rw [if_pos (Nat.not_lt.1 hraw), if_neg hraw]
    obtain ⟨kind, home, value, raw', quality, counter, age, writeOut, changed, notify, owner⟩ := q
    dsimp only
    cases quality with
    | good =>
      by_cases hvalue : value = raw.toNat
      · simp [hvalue]
      · by_cases hqual : qual ≤ counter + 1
        · simp [hvalue, hqual]
        · simp [hvalue, hqual]
    | waiting => rfl
    | stale => rfl
    | _ => simp

theorem takeAin_eq (offset : Nat) (gain : Int) (raw : Word) (q : Point) : takeAin offset gain raw q =
    if 4095 < raw.toNat then { q with raw := some raw, age := 0, counter := 0, quality := .fault }
    else
      { q with
        raw := some raw, age := 0, counter := 0, quality := .good
        value := max (-32768) (min 32767 (((raw.toNat : Int) - offset) * gain / 1024)) } := by
  unfold takeAin
  dsimp only
  by_cases hraw : 4095 < raw.toNat
  · rw [if_neg (Nat.not_le.2 hraw), if_pos hraw]
  · rw [if_pos (Nat.not_lt.1 hraw), if_neg hraw]
    rfl

theorem answeredOutput_eq (q : Point) : answeredOutput q =
    { q with
      age := 0
      quality := if q.quality = .stale then (if q.writeOut then .pending else .good) else q.quality } := by
  unfold answeredOutput
  dsimp only
  split <;> rfl

/-! ### The row -/

theorem scanAnswerGood_row {s : State} {k : Stn} {x : Slot} {rx : List RxByte} {a : ScanReport}
    (hheld : s.held = false) (hchange : s.hub.change = none) (hslot : (s.lines.get (lineOf k)).slot = some x)
    (hkind : x.kind = .station k) (hfirst : x.judged = false) (hvoid : x.void = false)
    (hscanned : isScanned (s.stations.get k).state = true)
    (hjudge : judge x .scanAnswer (readScan (inputCount s k)) rx = .ok a) :
    exec (.scanAnswerGood (lineOf k) rx) s = .next (scanGood k a (slotJudged (lineOf k) x s)) := by
  have hhub : (scanGood k a (slotJudged (lineOf k) x s)).hub = s.hub :=
    scanGood_keeps (link_hub s.hub) k a (slotJudged (lineOf k) x s) rfl
  have hrow : exec (.scanAnswerGood (lineOf k) rx) s = .next (settleChange (scanVerdict (lineOf k) rx s)) :=
    congrArg Host.Outcome.next (unlessHeld_of_high hheld)
  rw [hrow, scanVerdict_first hslot hkind hfirst hvoid hscanned, hjudge]
  dsimp only
  rw [settleChange_of_steady (by rw [hhub, hchange])]

section Answered

variable {s : State} {k : Stn} {a : ScanReport}

/-- What the samples add to the output writer's part (R67, R201). -/
theorem answerSamples_commission (h : s.hub.mode = .commission) :
    answerSamples k a s = { s with raw := s.raw.set k (some ⟨some a.samples, a.outputsSafe, 0⟩) } := by
  unfold answerSamples
  rw [h]

theorem answerSamples_unmapped (h : s.hub.mode ≠ .commission) (hp : profileOf s k = none) :
    answerSamples k a s = s := by
  unfold answerSamples
  cases hm : s.hub.mode with
  | commission => exact absurd hm h
  | _ =>
    dsimp only
    rw [hp]

theorem answerSamples_window {p : Profile} (h : s.hub.mode ≠ .commission) (hp : profileOf s k = some p) :
    answerSamples k a s = deliverPoints (takeSamples p a.samples s.points) s := by
  unfold answerSamples
  cases hm : s.hub.mode with
  | commission => exact absurd hm h
  | _ =>
    dsimp only
    rw [hp]

theorem answerSamples_inner {P : State → Prop} (h : Inner P) (hpoints : ∀ s pts, P s → P { s with points := pts })
    (hraw : ∀ s x, P s → P { s with raw := x }) (hs : P s) : P (answerSamples k a s) := by
  unfold answerSamples
  split
  · exact hraw _ _ hs
  · split
    · exact deliverPoints_inner h hpoints _ _ hs
    · exact hs

end Answered

/-- An operation's phase after its batch's acknowledgement (R146). -/
theorem notedOp_iff (k : Stn) (b : Batch) (gp : Option GroupPart) (r : OpRec) :
    (r.station = k → r.phase = .queued →
      (∃ part j, gp = some part ∧ driveOutput part r.kind = some j ∧ (j, 1) ∈ b.writes) →
      notedOp k b gp r = { r with phase := .driving }) ∧
    (r.station ≠ k ∨ r.phase ≠ .queued ∨
        ¬(∃ part j, gp = some part ∧ driveOutput part r.kind = some j ∧ (j, 1) ∈ b.writes) →
      notedOp k b gp r = r) := by
  have htest : ((gp.bind (driveOutput · r.kind)).map (fun j => b.writes.contains (j, 1))).getD false = true ↔
      ∃ part j, gp = some part ∧ driveOutput part r.kind = some j ∧ (j, 1) ∈ b.writes := by
    cases gp with
    | none => simp
    | some part =>
      cases hdrive : driveOutput part r.kind with
      | none => simp [hdrive]
      | some j => simp [hdrive]
  refine ⟨fun hstation hphase hacked => ?_, fun h => ?_⟩
  · rw [notedOp, if_pos]
    rw [Bool.and_eq_true, Bool.and_eq_true]
    exact ⟨⟨decide_eq_true hstation, beq_iff_eq.2 hphase⟩, htest.2 hacked⟩
  · rw [notedOp, if_neg]
    intro hall
    rw [Bool.and_eq_true, Bool.and_eq_true] at hall
    obtain ⟨⟨hstation, hphase⟩, hacked⟩ := hall
    rcases h with h | h | h
    · exact h (of_decide_eq_true hstation)
    · exact h (beq_iff_eq.1 hphase)
    · exact h (htest.1 hacked)

theorem mem_ackedBatch {echo : BitVec 4} {o : OutState} {b : Batch} :
    ackedBatch echo o = some b ↔ o.inFlight = some b ∧ b.number = echo := by
  rw [ackedBatch, Option.filter_eq_some_iff]
  simp

/-! ### The output writer's part, from the state after the report -/

section Writer

variable {s : State} {k : Stn} {echo : BitVec 4} {safe : Bool}

theorem answerOutputs_record : (answerOutputs k echo safe s).outputs.get k =
    if safe then resyncOut (echoedOut echo (s.outputs.get k)) else echoedOut echo (s.outputs.get k) := by
  rw [(congrArg State.outputs (answerOutputs_state k echo safe s) :), ByStn.get_set_self]

theorem answerOutputs_other {k' : Stn} (hk : k' ≠ k) :
    (answerOutputs k echo safe s).outputs.get k' = s.outputs.get k' := by
  rw [(congrArg State.outputs (answerOutputs_state k echo safe s) :), ByStn.get_set_ne _ _ hk]

theorem echoedOut_list (o : OutState) : (echoedOut echo o).list = o.list := by
  unfold echoedOut
  split
  · split <;> rfl
  · rfl

theorem answerOutputs_settles {p : Profile} {b : Batch} {j : Nat} {y : Word} (hp : profileOf s k = some p)
    (hacked : ackedBatch echo (s.outputs.get k) = some b) (hwritten : (j, y) ∈ b.writes)
    (hlater : hasWrite j (s.outputs.get k).list = false) (hinside : outputPoint p j < s.points.length) :
    SettledPoint (pointAt (answerOutputs k echo false s) (outputPoint p j)) := by
  rw [answerOutputs_eq, if_neg Bool.false_ne_true, hacked, echoedOut_list]
  unfold answerAcked
  dsimp only
  rw [noteBatch_eq]
  refine reportSettled_settles (s := updOut k _ s) hp ?_ hinside
  exact List.mem_filter.2 ⟨List.mem_map.2 ⟨(j, y), hwritten, rfl⟩, by simp [hlater]⟩

theorem answerOutputs_ops (g : Group) : (answerOutputs k echo safe s).ops.get g =
    match ackedBatch echo (s.outputs.get k) with
    | some b => (s.ops.get g).map (notedOp k b ((profileOf s k).bind (·.group)))
    | none => s.ops.get g := by
  rw [(congrArg State.ops (answerOutputs_state k echo safe s) :), answerAcked_ops]
  rfl

end Writer

/-- A window's points at a good answer (R67): the samples, and the ages of the outputs. -/
theorem takeSamples_eq (p : Profile) (samples : List Word) (pts : List Point) : takeSamples p samples pts =
    pts.mapIdx (fun i q => if i < p.base ∨ p.base + windowSize p ≤ i then q
      else answeredPoint p samples (i - p.base) q) := by
  rw [takeSamples, mapWindow_eq]

/-- Settles O41. -/
theorem goodScanMakesOnline : Obligations.GoodScanMakesOnline := by
  intro s k x rx a hheld hchange hslot hkind hstn hfirst hvoid hscanned hjudge
  set w := slotJudged (lineOf k) x s with hw
  have hwstations : w.stations = s.stations := rfl
  have hvstations : (scanReported k w).stations = s.stations.set k (onlineRecord (s.stations.get k)) :=
    scanReported_stations
  have hvhub : (scanReported k w).hub = s.hub := scanReported_inner (inner_hub _) rfl
  have hvstore : (scanReported k w).store = s.store := scanReported_inner (inner_store _) rfl
  have hvprofile : profileOf (scanReported k w) k = profileOf s k := scanReported_profileOf (s := w)
  have hvlength : (scanReported k w).points.length = s.points.length := scanReported_length (s := w)
  have hreport : scanReported k w = reportScanned k (s.stations.get k).state { s with
      lines := s.lines.set (lineOf k) { s.lines.get (lineOf k) with slot := some { x with judged := true } }
      stations := s.stations.set k (onlineRecord (s.stations.get k)) } := rfl
  have honline : (s.stations.get k).state = .online → (scanReported k w).outputs = s.outputs ∧
      (scanReported k w).ops = s.ops ∧ (scanReported k w).points = s.points := fun h => by
    rw [scanReported_online (s := w) h]
    exact ⟨rfl, rfl, rfl⟩
  have hrow := scanAnswerGood_row hheld hchange hslot hkind hfirst hvoid hscanned hjudge
  rw [scanGood_eq, ← hw] at hrow
  generalize scanReported k w = v at hvstations hvhub hvstore hvprofile hvlength hreport honline hrow
  set u := answerOutputs k a.echo a.outputsSafe v with hu
  have hstate := answerOutputs_state k a.echo a.outputsSafe v
  rw [← hu] at hstate
  have hustations : u.stations = v.stations := by rw [hstate]
  have huhub : u.hub = s.hub := by rw [hstate]; exact hvhub
  have hustore : u.store = s.store := by rw [hstate]; exact hvstore
  have huprofile : profileOf u k = profileOf s k := by
    refine Eq.trans ?_ hvprofile
    rw [hstate]
    rfl
  have htstations : (answerSamples k a u).stations = s.stations.set k (onlineRecord (s.stations.get k)) :=
    answerSamples_inner (inner_stations _) (fun _ _ h => h) (fun _ _ h => h) (hustations.trans hvstations)
  have hops := fun g => answerOutputs_ops (s := v) (k := k) (echo := a.echo) (safe := a.outputsSafe) g
  simp only [← hu, hvprofile] at hops
  refine ⟨answerSamples k a u, v, u, hrow, htstations,
    answerSamples_inner (inner_hub _) (fun _ _ h => h) (fun _ _ h => h) huhub,
    answerSamples_inner (inner_store _) (fun _ _ h => h) (fun _ _ h => h) hustore, ?_, honline, rfl,
    fun hmode => answerSamples_commission (by rw [huhub, hmode]),
    fun hmode hnone => answerSamples_unmapped (by rw [huhub]; exact hmode) (by rw [huprofile, hnone]),
    fun o ho => ?_, fun k' hk' => answerOutputs_other hk', ?_, fun g hnone => ?_, fun g r hop acked hacked => ?_,
    fun hmode p hp => ?_⟩
  · rw [htstations]
    exact hreport
  · have ho' : o = echoedOut a.echo (v.outputs.get k) := ho
    subst ho'
    have hrecord := answerOutputs_record (s := v) (k := k) (echo := a.echo) (safe := a.outputsSafe)
    rw [← hu] at hrecord
    refine ⟨fun hsafe => ?_, fun hsafe => ?_⟩
    · rw [hrecord, hsafe, if_neg Bool.false_ne_true]
    · rw [hrecord, hsafe, if_pos rfl, resyncOut_eq]
  · intro p b j y hp hflight hnumber hwritten hlater hsafe hinside
    rw [hu, hsafe]
    exact answerOutputs_settles (hvprofile.trans hp) (mem_ackedBatch.2 ⟨hflight, hnumber⟩) hwritten hlater
      (by rwa [hvlength])
  · rw [hops, hnone]
    split <;> rfl
  · have hiff : acked ↔ ∃ b, ackedBatch a.echo (v.outputs.get k) = some b ∧ ∃ part j,
        (profileOf s k).bind (·.group) = some part ∧ driveOutput part r.kind = some j ∧ (j, 1) ∈ b.writes := by
      rw [hacked]
      simp only [mem_ackedBatch]
      constructor
      · rintro ⟨b, part, j, hflight, hnumber, hpart, hdrive, hmem⟩
        exact ⟨b, ⟨hflight, hnumber⟩, part, j, hpart, hdrive, hmem⟩
      · rintro ⟨b, ⟨hflight, hnumber⟩, part, j, hpart, hdrive, hmem⟩
        exact ⟨b, part, j, hflight, hnumber, hpart, hdrive, hmem⟩
    rw [hops, hop, hiff]
    cases hbatch : ackedBatch a.echo (v.outputs.get k) with
    | none => exact ⟨fun _ _ ⟨_, h, _⟩ => absurd h (by simp), fun _ => rfl⟩
    | some b =>
      obtain ⟨hdriven, hkept⟩ := notedOp_iff k b ((profileOf s k).bind (·.group)) r
      have hsame : (∃ b', some b = some b' ∧ ∃ part j, (profileOf s k).bind (·.group) = some part ∧
          driveOutput part r.kind = some j ∧ (j, 1) ∈ b'.writes) ↔ ∃ part j,
          (profileOf s k).bind (·.group) = some part ∧ driveOutput part r.kind = some j ∧ (j, 1) ∈ b.writes := by
        simp
      rw [hsame]
      exact ⟨fun hstation hphase h => congrArg some (hdriven hstation hphase h), fun h => congrArg some (hkept h)⟩
  · refine (answerSamples_window (by rw [huhub]; exact hmode) (huprofile.trans hp)).trans ?_
    rw [takeSamples_eq]
    congr 2
    funext i q
    split
    · rfl
    · unfold answeredPoint
      cases hinput : p.inputs[i - p.base]? with
      | none => exact answeredOutput_eq q
      | some d =>
        cases hsample : a.samples[i - p.base]? with
        | none => rfl
        | some raw =>
          obtain ⟨kind, notify⟩ := d
          cases kind with
          | din qual => exact takeDin_eq qual raw q
          | ain offset gain => exact takeAin_eq offset gain raw q

end Sys2Proof.Proofs
end

section
/-! A station's admission under a profile (R26 to R29, R64, R93, R103): its records, its window, its group, its
outputs. -/

namespace Sys2Proof.Proofs

open Sys2Proof Sys2Proof.Machine Sys2Proof.Safety Sys2Proof.Laws

/-! ### A mapped point (R64) -/

/-- A point that keeps of `q` all but its value and its flags. -/
structure MappedAs (q r : Point) : Prop where
  kind : r.kind = q.kind
  home : r.home = q.home
  raw : r.raw = q.raw
  quality : r.quality = q.quality
  counter : r.counter = q.counter
  age : r.age = q.age
  owner : r.owner = q.owner

theorem MappedAs.flagged {q r old : Point} (h : MappedAs q r) : MappedAs q (flagged old r) := by
  unfold Proofs.flagged
  split
  · exact h
  · exact ⟨h.kind, h.home, h.raw, h.quality, h.counter, h.age, h.owner⟩

theorem MappedAs.written {q r : Point} (hq : q.quality ≠ .good) (v : Word) (h : MappedAs q r) :
    MappedAs q (writtenPoint v r) := by
  refine ⟨h.kind, h.home, h.raw, ?_, h.counter, h.age, h.owner⟩
  show (if r.quality = .good then Quality.pending else r.quality) = q.quality
  rw [h.quality, if_neg hq]

/-- A newly mapped point stays so under what the cab service and the interlock write. -/
theorem beside_mapped (i : Nat) {q : Point} (hq : q.quality ≠ .good) :
    Beside (fun t => MappedAs q (pointAt t i)) where
  notice _ _ _ h := by rwa [notice_pointAt]
  cab _ _ h := h
  lampWrite n v s _ _ h := by
    cases hp : profileOf s .c1 with
    | none => rwa [pointAt_enterWrite_of_no_profile hp]
    | some p =>
      rw [pointAt_enterWrite hp]
      split
      · exact (h.written hq v).flagged
      · exact h
  permitLine g v s h := by
    rw [pointAt_setLocalOutput]
    split
    · exact MappedAs.flagged ⟨h.kind, h.home, h.raw, h.quality, h.counter, h.age, h.owner⟩
    · exact h
  groups _ _ h := h
  permitPins _ _ h := h
  owners _ _ h := h
  ops _ _ h := h
  results _ _ h := h

/-! ### The parts of an admission -/

/-- The station's window mapped and its record's move told (R64, R70). -/
def windowMapped (k : Stn) (p : Profile) (s : State) : State :=
  stationNotice k (commitQuiet (mapProfileWindow k p s.points) { s with
    staleLimits := s.staleLimits.set k (some (staleLimit p.maxAgeMs (s.lines.get (lineOf k)).inForce.period)) })

/-- The outputs' initial values written (R93). -/
def outputsWritten (k : Stn) (p : Profile) (s : State) : State := resync k (updOut k (fun _ => admitOut p) s)

section Admitted

variable {s : State} {k : Stn} {ref : ProfileRef} {p : Profile}

theorem admitStation_spreader (hline : lineOf k = .s) (hp : profileOf (joinStation k (some ref) s) k = some p) :
    admitStation k ref s = outputsWritten k p (bindGroup k (windowMapped k p (joinStation k (some ref) s))) := by
  unfold admitStation
  dsimp only
  rw [hp]
  dsimp only
  simp only [hline]
  unfold outputsWritten windowMapped
  rw [hline]

theorem admitStation_cab (hline : lineOf k = .c) (hp : profileOf (joinStation k (some ref) s) k = some p) :
    admitStation k ref s =
      reportCabStation .joining (outputsWritten k p (windowMapped k p (joinStation k (some ref) s))) := by
  unfold admitStation
  dsimp only
  rw [hp]
  dsimp only
  simp only [hline]
  unfold outputsWritten windowMapped
  rw [hline]

theorem windowMapped_state (k : Stn) (p : Profile) (s : State) : windowMapped k p s =
    { s with
      staleLimits :=
        s.staleLimits.set k (some (staleLimit p.maxAgeMs (s.lines.get (lineOf k)).inForce.period))
      points := (windowMapped k p s).points
      port := (windowMapped k p s).port } := by
  unfold windowMapped
  rw [stationNotice_state, commitQuiet_state]

theorem outputsWritten_state (k : Stn) (p : Profile) (s : State) : outputsWritten k p s =
    { s with
      outputs := s.outputs.set k (resyncOut (admitOut p))
      points := (outputsWritten k p s).points
      port := (outputsWritten k p s).port } := by
  unfold outputsWritten
  rw [resync_state]
  simp [updOut]

theorem reportCabStation_beside {P : State → Prop} (h : Beside P) (new : StationState) (s : State) (hs : P s) :
    P (reportCabStation new s) := by
  unfold reportCabStation
  dsimp only
  split
  · exact offerCabWrites_beside h _ (h.cab _ _ hs)
  · exact h.cab _ _ hs

theorem bindGroup_beside {P : State → Prop} (h : Beside P) (k : Stn) (s : State) (hs : P s) : P (bindGroup k s) := by
  unfold bindGroup
  split
  · split
    · exact evaluateFrom_beside h _ _ _ (h.groups _ _ hs)
    · exact hs
  · exact hs

/-- An admission leaves what the interlock, the cab service and notices leave. -/
theorem admitStation_inner {P : State → Prop} (h : Inner P)
    (hwriter : ∀ s o pts q, P s → P { s with outputs := o, points := pts, port := q })
    (hp : profileOf (joinStation k (some ref) s) k = some p)
    (hs : P { joinStation k (some ref) s with
      staleLimits := s.staleLimits.set k (some (staleLimit p.maxAgeMs (s.lines.get (lineOf k)).inForce.period)) }) :
    P (admitStation k ref s) := by
  have hjoined : ∀ l, ((joinStation k (some ref) s).lines.get l).inForce = (s.lines.get l).inForce := fun l => by
    unfold joinStation
    rw [updLine_lines, ByLine.get_set]
    split
    · next hl => rw [hl]; rfl
    · rfl
  have hwindow : P (windowMapped k p (joinStation k (some ref) s)) := by
    rw [windowMapped_state, hjoined]
    exact hwriter _ (joinStation k (some ref) s).outputs _ _ hs
  have hwritten : ∀ u, P u → P (outputsWritten k p u) := fun u hu => by
    rw [outputsWritten_state]
    exact hwriter _ _ _ _ hu
  cases hline : lineOf k with
  | s =>
    rw [admitStation_spreader hline hp]
    exact hwritten _ (bindGroup_keeps h.toLocal _ _ hwindow)
  | c =>
    rw [admitStation_cab hline hp]
    exact reportCabStation_panel h.toPanel _ _ (hwritten _ hwindow)

/-! ### The window (R64) -/

theorem windowMapped_pointAt (k : Stn) (p : Profile) (s : State) (i : Nat) : pointAt (windowMapped k p s) i =
    if p.base ≤ i ∧ i < p.base + windowSize p ∧ i < s.points.length then
      flagged (pointAt s i) (mappedPoint k p (i - p.base) (pointAt s i))
    else pointAt s i := by
  unfold windowMapped mapProfileWindow
  rw [stationNotice, notice_pointAt]
  refine (pointAt_commitQuiet (length_mapWindow _ _ _ _) i).trans ?_
  have hmapped := getD_mapWindow (mappedPoint k p) p.base (windowSize p) s.points i
  show flagged (pointAt s i) ((mapWindow (mappedPoint k p) p.base (windowSize p) s.points).getD i Point.unmapped) = _
  rw [hmapped]
  split
  · rfl
  · exact flagged_self _

/-- The writing of the outputs' initial values leaves a mapped point mapped (R93). -/
theorem outputsWritten_mapped {i : Nat} {q : Point} (hq : q.quality ≠ .good) (h : MappedAs q (pointAt s i)) :
    MappedAs q (pointAt (outputsWritten k p s) i) := by
  unfold outputsWritten resync reportResync
  split
  · rw [pointAt_commitQuiet (length_mapWindow _ _ _ _)]
    refine MappedAs.flagged ?_
    rw [getD_mapWindow]
    split
    · exact MappedAs.written hq _ h
    · exact h
  · exact h

theorem admitStation_mapped (hp : profileOf (joinStation k (some ref) s) k = some p) {i : Nat} {q : Point}
    (hlow : p.base ≤ i) (hhigh : i < p.base + windowSize p) (hwhole : i < s.points.length)
    (hpoint : mappedPoint k p (i - p.base) (pointAt s i) = q) (hq : q.quality ≠ .good) :
    MappedAs q (pointAt (admitStation k ref s) i) := by
  have hwindow : MappedAs q (pointAt (windowMapped k p (joinStation k (some ref) s)) i) := by
    rw [windowMapped_pointAt, if_pos ⟨hlow, hhigh, hwhole⟩]
    exact MappedAs.flagged (hpoint ▸ ⟨rfl, rfl, rfl, rfl, rfl, rfl, rfl⟩)
  cases hline : lineOf k with
  | s =>
    rw [admitStation_spreader hline hp]
    exact outputsWritten_mapped hq (bindGroup_beside (beside_mapped i hq) _ _ hwindow)
  | c =>
    rw [admitStation_cab hline hp]
    exact reportCabStation_beside (beside_mapped i hq) _ _ (outputsWritten_mapped hq hwindow)

/-- An output's point carries its initial value to be written out (R93). -/
theorem outputsWritten_value (hp : profileOf s k = some p) {j : Nat} {o : OutputDesc} (ho : p.outputs[j]? = some o)
    (hwhole : outputPoint p j < s.points.length) :
    (pointAt (outputsWritten k p s) (outputPoint p j)).value = o.initial.toNat ∧
      (pointAt (outputsWritten k p s) (outputPoint p j)).writeOut = true := by
  have hp' : profileOf (updOut k resyncOut (updOut k (fun _ => admitOut p) s)) k = some p := hp
  have hintended : (outOf (updOut k (fun _ => admitOut p) s) k).intended =
      p.outputs.map (fun o => BitVec.ofNat 16 o.initial.toNat) := by
    simp [outOf, admitOut]
  have hj : j < p.outputs.length := (List.getElem?_eq_some_iff.1 ho).1
  have hvalue : (p.outputs.map (fun o => BitVec.ofNat 16 o.initial.toNat)).getD j 0 =
      BitVec.ofNat 16 o.initial.toNat := by
    rw [List.getD_eq_getElem?_getD, List.getElem?_map, ho]
    rfl
  have hplace : p.base + p.inputs.length ≤ outputPoint p j ∧
      outputPoint p j < p.base + p.inputs.length + p.outputs.length := by
    unfold outputPoint
    omega
  have hindex : outputPoint p j - (p.base + p.inputs.length) = j := by
    unfold outputPoint
    omega
  unfold outputsWritten resync reportResync
  rw [hp', hintended]
  dsimp only
  rw [pointAt_commitQuiet (length_mapWindow _ _ _ _), (flagged_fields _ _).1, (flagged_fields _ _).2.2, getD_mapWindow,
    if_pos ⟨hplace.1, hplace.2, hwhole⟩, hindex, hvalue]
  refine ⟨?_, rfl⟩
  cases hinitial : o.initial <;> rfl

end Admitted

end Sys2Proof.Proofs
end

section
/-! Admission and refusal on a good ROLL_ANSWER (R21, R26 to R29, R97, R103). -/

namespace Sys2Proof.Proofs

open Sys2Proof Sys2Proof.Machine Sys2Proof.Safety Sys2Proof.Laws

/-! ### The verdict of a probe slot (R21) -/

section Probe

variable {s : State} {k : Stn} {x : Slot} {rx : List RxByte}

theorem probeVerdict_first (hslot : (s.lines.get (lineOf k)).slot = some x) (hkind : x.kind = .probe) (hstn : x.stn = k)
    (hfirst : x.judged = false) : probeVerdict (lineOf k) rx s =
      match judge x .rollAnswer readRoll rx with
      | .ok i => if isCandidate s k && s.hub.change.isNone then admission k i (slotJudged (lineOf k) x s)
          else slotJudged (lineOf k) x s
      | .error _ => slotJudged (lineOf k) x s := by
  have hcandidate : isCandidate (slotJudged (lineOf k) x s) k = isCandidate s k := by
    unfold isCandidate slotJudged
    rw [updLine_lines, ByLine.get_set_self]
    rfl
  obtain ⟨kind, stn, request, settings, length, judged, void⟩ := x
  subst hkind
  subst hstn
  unfold probeVerdict
  rw [hslot]
  dsimp only
  rw [withSlot_first hslot hfirst, hcandidate]
  rfl

theorem rollAnswerGood_row {l : Line} (hheld : s.held = false) :
    exec (.rollAnswerGood l rx) s = .next (probeVerdict l rx s) :=
  congrArg Host.Outcome.next (unlessHeld_of_high hheld)

theorem probeMiss_row {l : Line} (hheld : s.held = false) :
    exec (.probeMiss l rx) s = .next (probeVerdict l rx s) :=
  congrArg Host.Outcome.next (unlessHeld_of_high hheld)

end Probe

/-! ### The checks decide (R26, R29) -/

section Decided

variable {s : State} {k : Stn} {i : Identity}

/-- The state in which a good answer's identity is stored. -/
def identified (k : Stn) (i : Identity) (s : State) : State := updStation k (fun r => { r with identity := some i }) s

theorem admission_passed {ref : ProfileRef} (hmode : s.hub.mode ≠ .commission)
    (hcheck : admissionCheck (identified k i s) k i = .ok ref) :
    admission k i s = admitStation k ref (identified k i s) := by
  have hmode' : (identified k i s).hub.mode ≠ .commission := hmode
  unfold admission
  rw [← identified]
  dsimp only
  cases hm : (identified k i s).hub.mode with
  | commission => exact absurd hm hmode'
  | _ =>
    dsimp only
    rw [hcheck]

theorem admission_failed {why : RefusalReason} (hmode : s.hub.mode ≠ .commission)
    (hcheck : admissionCheck (identified k i s) k i = .error why) :
    admission k i s = refuseStation k why (identified k i s) := by
  have hmode' : (identified k i s).hub.mode ≠ .commission := hmode
  unfold admission
  rw [← identified]
  dsimp only
  cases hm : (identified k i s).hub.mode with
  | commission => exact absurd hm hmode'
  | _ =>
    dsimp only
    rw [hcheck]

theorem admission_commission (hmode : s.hub.mode = .commission) : admission k i s =
    if budgetFits (identified k i s) k i.inputs then admitCommission k i (identified k i s)
    else refuseStation k .budget (identified k i s) := by
  have hmode' : (identified k i s).hub.mode = .commission := hmode
  unfold admission
  rw [← identified]
  dsimp only
  rw [hmode']

end Decided

/-! ### A refusal (R28) -/

section Refused

variable {s : State} {k : Stn} {why : RefusalReason}

theorem refuseStation_inner {P : State → Prop} (h : Inner P)
    (hs : P (updStation k (fun r => { r with state := .refused, refusal := some why, lastCause := .refused }) s)) :
    P (refuseStation k why s) := by
  unfold refuseStation
  dsimp only
  split
  · exact hs
  · split
    · exact h.notice _ _ _ hs
    · split
      · exact h.notice _ _ _ hs
      · exact reportCabStation_panel h.toPanel _ _ (h.notice _ _ _ hs)

theorem refuseStation_stations : (refuseStation k why s).stations = s.stations.set k
    { s.stations.get k with state := .refused, refusal := some why, lastCause := .refused } :=
  refuseStation_inner (inner_stations _) rfl

theorem refuseStation_lines : (refuseStation k why s).lines = s.lines :=
  refuseStation_inner (inner_lines _) rfl

end Refused

/-! ### An admission in COMMISSION mode (R29, R97, R201) -/

section Commission

variable {s : State} {k : Stn}

/-- In COMMISSION mode the cab service offers no write (R171). -/
theorem offerCabWrites_commission (h : s.hub.mode = .commission) : offerCabWrites s = s :=
  foldl_keeps (P := fun u => u = s) offerCabWrite (fun u n hu => by
    rw [hu, offerCabWrite, if_neg]
    simp [cabOutstanding, h]) ownedOutputs s rfl

theorem reportCabStation_commission (h : s.hub.mode = .commission) (new : StationState) :
    (reportCabStation new s).stations = s.stations ∧ (reportCabStation new s).raw = s.raw ∧
      (reportCabStation new s).outputs = s.outputs := by
  unfold reportCabStation
  dsimp only
  split
  · rw [offerCabWrites_commission (s := updCab _ s) h]
    exact ⟨rfl, rfl, rfl⟩
  · exact ⟨rfl, rfl, rfl⟩

/-- The state of a COMMISSION admission, ahead of the report to the cab service. -/
def commissioned (k : Stn) (i : Identity) (s : State) : State :=
  let u := updOut k (fun _ => admitOutCommission i.outputs) (joinStation k none s)
  stationNotice k { u with raw := u.raw.set k (some ⟨none, false, 0⟩) }

theorem admitCommission_eq (k : Stn) (i : Identity) (s : State) : admitCommission k i s =
    match lineOf k with
    | .s => commissioned k i s
    | .c => reportCabStation .joining (commissioned k i s) := rfl

theorem commissioned_fields (k : Stn) (i : Identity) (s : State) :
    (commissioned k i s).stations = s.stations.set k (joinRecord none (s.stations.get k)) ∧
    (commissioned k i s).raw.get k = some ⟨none, false, 0⟩ ∧
    (commissioned k i s).outputs.get k = ⟨[], none, 0, 0, 0, List.replicate i.outputs 0⟩ ∧
    (commissioned k i s).hub = s.hub := by
  unfold commissioned
  dsimp only
  rw [stationNotice_state]
  exact ⟨rfl, ByStn.get_set_self _ _ _, ByStn.get_set_self _ _ _, rfl⟩

theorem admitCommission_fields (h : s.hub.mode = .commission) (i : Identity) :
    (admitCommission k i s).stations = s.stations.set k (joinRecord none (s.stations.get k)) ∧
    (admitCommission k i s).raw.get k = some ⟨none, false, 0⟩ ∧
    (admitCommission k i s).outputs.get k = ⟨[], none, 0, 0, 0, List.replicate i.outputs 0⟩ := by
  obtain ⟨hstations, hraw, houtputs, hhub⟩ := commissioned_fields k i s
  rw [admitCommission_eq]
  generalize commissioned k i s = w at hstations hraw houtputs hhub
  split
  · exact ⟨hstations, hraw, houtputs⟩
  · obtain ⟨hs, hr, ho⟩ := reportCabStation_commission (s := w) (by rw [hhub, h]) .joining
    exact ⟨hs.trans hstations, (congrArg (·.get k) hr).trans hraw, (congrArg (·.get k) ho).trans houtputs⟩

end Commission

/-! ### The group of an admitted station (R103) -/

section Bound

variable {s : State} {k : Stn} {p : Profile} {gp : GroupPart}

/-- An evaluation keeps what a binding has put in a record, and of a JOINING station's group no permit is on. -/
theorem evalRecord_bound (hjoining : (s.stations.get k).state = .joining)
    (hrecord : s.groups.get gp.role = boundRecord k p gp) :
    (evalRecord s gp.role).bound = true ∧ (evalRecord s gp.role).station = some k ∧
      (evalRecord s gp.role).corners.map (fun c => (c.landed, c.locked, c.unlocked)) =
        gp.corners.map (fun c => (p.base + c.landed, p.base + c.locked, p.base + c.unlocked)) ∧
      (evalRecord s gp.role).position = gp.size.map (fun z => p.base + z.position) ∧
      (evalRecord s gp.role).trip = false ∧ (evalRecord s gp.role).permit = false := by
  have honline : groupOnline s gp.role = false := by
    have hstate : stateOf s k = .joining := hjoining
    rw [groupOnline, hrecord]
    show isOnline (stateOf s k) = false
    rw [hstate]
    rfl
  unfold evalRecord
  dsimp only
  rw [hrecord]
  refine ⟨rfl, rfl, ?_, rfl, ?_, ?_⟩
  · rw [List.map_map]
    exact List.map_map
  · simp [boundRecord, GroupRec.unbound, tripCondition]
  · simp [permitOf, honline]

theorem bindGroup_eq (hp : profileOf s k = some p) (hgp : p.group = some gp) : bindGroup k s =
    evaluateFrom (s.groups.get gp.role) gp.role (updGroup gp.role (fun _ => boundRecord k p gp) s) := by
  unfold bindGroup
  rw [hp]
  dsimp only
  rw [hgp]

theorem bindGroup_binds (hp : profileOf s k = some p) (hgp : p.group = some gp)
    (hjoining : (s.stations.get k).state = .joining) :
    ((bindGroup k s).groups.get gp.role).bound = true ∧ ((bindGroup k s).groups.get gp.role).station = some k ∧
      ((bindGroup k s).groups.get gp.role).corners.map (fun c => (c.landed, c.locked, c.unlocked)) =
        gp.corners.map (fun c => (p.base + c.landed, p.base + c.locked, p.base + c.unlocked)) ∧
      ((bindGroup k s).groups.get gp.role).position = gp.size.map (fun z => p.base + z.position) ∧
      ((bindGroup k s).groups.get gp.role).trip = false ∧ ((bindGroup k s).groups.get gp.role).permit = false ∧
      (bindGroup k s).permitPins.get gp.role = false := by
  have hrecord : (updGroup gp.role (fun _ => boundRecord k p gp) s).groups.get gp.role = boundRecord k p gp := by
    rw [updGroup_groups, ByGroup.get_set_self]
  have hbound : ((updGroup gp.role (fun _ => boundRecord k p gp) s).groups.get gp.role).bound = true := by
    rw [hrecord]
    rfl
  have hgroups : (bindGroup k s).groups.get gp.role =
      evalRecord (updGroup gp.role (fun _ => boundRecord k p gp) s) gp.role := by
    rw [bindGroup_eq hp hgp, evaluateFrom_groups, if_pos hbound, ByGroup.get_set_self]
  have hpin : (bindGroup k s).permitPins.get gp.role =
      (evalRecord (updGroup gp.role (fun _ => boundRecord k p gp) s) gp.role).permit := by
    rw [bindGroup_eq hp hgp, evaluateFrom_permitPins, if_pos hbound, ByGroup.get_set_self]
  obtain ⟨hb, hstation, hcorners, hposition, htrip, hpermit⟩ :=
    evalRecord_bound (s := updGroup gp.role (fun _ => boundRecord k p gp) s) hjoining hrecord
  rw [hgroups, hpin]
  exact ⟨hb, hstation, hcorners, hposition, htrip, hpermit, hpermit⟩

end Bound

/-! ### The output record of an admitted station (R85, R93) -/

theorem admitOut_resynced (p : Profile) {ws : List Word}
    (hws : ws = p.outputs.map (fun o => BitVec.ofNat 16 o.initial.toNat)) :
    resyncOut (admitOut p) = if ws = [] then ⟨[], none, 0, 0, 0, []⟩ else
      ⟨((indexed 0 ws).drop 8).map (fun w => .write w.1 w.2), some ⟨1, (indexed 0 ws).take 8⟩, 1, 0, 0, ws⟩ := by
  have hintended : (admitOut p).intended = ws := hws.symm
  have hnext : nextNumber (admitOut p) = 1 := rfl
  rw [resyncOut_eq, hintended, hnext]
  unfold admitOut
  rw [← hws]
  cases ws with
  | nil => rfl
  | cons w ws => rfl

/-! ### An admission under a profile, whole -/

section Joined

variable {s : State} {k : Stn} {ref : ProfileRef} {p : Profile}

theorem joinStation_profileOf (hresolve : resolveProfile s ref = some p) :
    profileOf (joinStation k (some ref) s) k = some p := by
  have hrecord : (joinStation k (some ref) s).stations = s.stations.set k (joinRecord (some ref) (s.stations.get k)) :=
    rfl
  unfold profileOf
  rw [hrecord, ByStn.get_set_self]
  show resolveProfile (joinStation k (some ref) s) ref = some p
  rw [← hresolve]
  cases ref <;> rfl

theorem line_of_spreader (hk : k ≠ .c1) : lineOf k = .s := by
  cases k with
  | c1 => exact absurd rfl hk
  | _ => rfl

/-- The state of a spreader station's admission in which its group has been bound. -/
def groupBound (k : Stn) (ref : ProfileRef) (p : Profile) (s : State) : State :=
  bindGroup k (windowMapped k p (joinStation k (some ref) s))

theorem windowMapped_profileOf (hp : profileOf (joinStation k (some ref) s) k = some p) :
    profileOf (windowMapped k p (joinStation k (some ref) s)) k = some p := by
  rw [windowMapped_state]
  exact hp

theorem groupBound_fields (hp : profileOf (joinStation k (some ref) s) k = some p) :
    profileOf (groupBound k ref p s) k = some p ∧ (groupBound k ref p s).points.length = s.points.length := by
  have hstations : (groupBound k ref p s).stations = (windowMapped k p (joinStation k (some ref) s)).stations :=
    bindGroup_keeps (inner_stations _).toLocal _ _ rfl
  have hprofiles : (groupBound k ref p s).profiles = (windowMapped k p (joinStation k (some ref) s)).profiles :=
    bindGroup_keeps (inner_profiles _).toLocal _ _ rfl
  refine ⟨(profileOf_congr hstations hprofiles k).trans (windowMapped_profileOf hp),
    bindGroup_keeps (inner_length _).toLocal _ _ ?_⟩
  unfold windowMapped
  rw [stationNotice_state]
  show (commitQuiet _ _).points.length = _
  rw [commitQuiet_state]
  show (flagChanges _ (mapProfileWindow k p _)).length = _
  rw [length_flagChanges, mapProfileWindow, length_mapWindow]
  rfl

theorem admitStation_value (hk : k ≠ .c1) (hp : profileOf (joinStation k (some ref) s) k = some p) {j : Nat}
    {o : OutputDesc} (ho : p.outputs[j]? = some o) (hwhole : outputPoint p j < s.points.length) :
    (pointAt (admitStation k ref s) (outputPoint p j)).value = o.initial.toNat ∧
      (pointAt (admitStation k ref s) (outputPoint p j)).writeOut = true := by
  obtain ⟨hprofile, hlength⟩ := groupBound_fields hp
  rw [admitStation_spreader (line_of_spreader hk) hp]
  exact outputsWritten_value hprofile ho (hwhole.trans_eq hlength.symm)

theorem admitStation_group {gp : GroupPart} (hline : lineOf k = .s)
    (hp : profileOf (joinStation k (some ref) s) k = some p) (hgp : p.group = some gp) :
    ((admitStation k ref s).groups.get gp.role).bound = true ∧
      ((admitStation k ref s).groups.get gp.role).station = some k ∧
      ((admitStation k ref s).groups.get gp.role).corners.map (fun c => (c.landed, c.locked, c.unlocked)) =
        gp.corners.map (fun c => (p.base + c.landed, p.base + c.locked, p.base + c.unlocked)) ∧
      ((admitStation k ref s).groups.get gp.role).position = gp.size.map (fun z => p.base + z.position) ∧
      ((admitStation k ref s).groups.get gp.role).trip = false ∧
      ((admitStation k ref s).groups.get gp.role).permit = false ∧
      (admitStation k ref s).permitPins.get gp.role = false := by
  have hjoining : ((windowMapped k p (joinStation k (some ref) s)).stations.get k).state = .joining := by
    rw [windowMapped_state]
    show ((s.stations.set k (joinRecord (some ref) (s.stations.get k))).get k).state = _
    rw [ByStn.get_set_self]
    rfl
  rw [admitStation_spreader hline hp, outputsWritten_state]
  exact bindGroup_binds (windowMapped_profileOf hp) hgp hjoining

theorem admitStation_outputs (hk : k ≠ .c1) (hp : profileOf (joinStation k (some ref) s) k = some p) :
    (admitStation k ref s).outputs.get k = resyncOut (admitOut p) := by
  rw [admitStation_spreader (line_of_spreader hk) hp, outputsWritten_state]
  exact ByStn.get_set_self _ _ _

/-- The point of an input of an admitted station's window (R64). -/
theorem admitStation_input (hp : profileOf (joinStation k (some ref) s) k = some p) {j : Nat} {d : InputDesc}
    (hd : p.inputs[j]? = some d) (hwhole : p.base + j < s.points.length) :
    MappedAs ⟨inputPointKind d.kind, homeOf k j, 0, none, .waiting, 0, 0, false,
      (pointAt s (p.base + j)).changed, d.notify, .free⟩ (pointAt (admitStation k ref s) (p.base + j)) := by
  have hj : j < p.inputs.length := (List.getElem?_eq_some_iff.1 hd).1
  refine admitStation_mapped hp (Nat.le_add_right _ _) ?_ hwhole ?_ (by simp)
  · unfold windowSize
    omega
  · rw [Nat.add_sub_cancel_left, mappedPoint, hd]

/-- The point of an output of an admitted station's window (R64). -/
theorem admitStation_output (hp : profileOf (joinStation k (some ref) s) k = some p) {j : Nat} {o : OutputDesc}
    (hd : p.inputs[j]? = none) (ho : p.outputs[j - p.inputs.length]? = some o)
    (hwhole : p.base + j < s.points.length) :
    MappedAs ⟨.dout, homeOf k (j - p.inputs.length), o.initial.toNat, none, .pending, 0, 0, true,
      (pointAt s (p.base + j)).changed, o.notify, outputTag k p (j - p.inputs.length)⟩
      (pointAt (admitStation k ref s) (p.base + j)) := by
  have hj : p.inputs.length ≤ j := List.getElem?_eq_none_iff.1 hd
  have hj' : j - p.inputs.length < p.outputs.length := (List.getElem?_eq_some_iff.1 ho).1
  refine admitStation_mapped hp (Nat.le_add_right _ _) ?_ hwhole ?_ (by simp)
  · unfold windowSize
    omega
  · rw [Nat.add_sub_cancel_left, mappedPoint, hd]
    dsimp only
    rw [ho]

end Joined

/-- Settles O43. -/
theorem probeVerdictsDecideAdmission : Obligations.ProbeVerdictsDecideAdmission := by
  intro s k x rx hheld hslot hkind hstn hfirst
  have hverdict := probeVerdict_first (rx := rx) hslot hkind hstn hfirst
  refine ⟨fun i u hjudge hcandidate hchange hu => ?_, fun i hjudge hunwanted => ?_, fun why hjudge => ?_⟩
  · have hu' : identified k i (slotJudged (lineOf k) x s) = u := hu.symm
    have hustations : u.stations = s.stations.set k { s.stations.get k with identity := some i } := by
      rw [hu]
      rfl
    have hulines : u.lines = s.lines.set (lineOf k) { s.lines.get (lineOf k) with
        slot := some { x with judged := true } } := by
      rw [hu]
      rfl
    have hunext : (u.lines.get (lineOf k)).next = (s.lines.get (lineOf k)).next := by
      rw [hulines, ByLine.get_set_self]
    have hlength : u.points.length = s.points.length := by
      rw [hu]
      rfl
    have hrow : exec (.rollAnswerGood (lineOf k) rx) s = .next (admission k i (slotJudged (lineOf k) x s)) := by
      rw [rollAnswerGood_row hheld, hverdict, hjudge]
      dsimp only
      rw [hcandidate, hchange]
      rfl
    have hrecord : ∀ f : StationRec → StationRec, u.stations.set k (f (u.stations.get k)) =
        s.stations.set k (f { s.stations.get k with identity := some i }) := fun f => by
      rw [hustations, ByStn.get_set_self, ByStn.set_set]
    refine ⟨fun ref p hmode hcheck hresolve => ?_, fun why hmode hcheck => ?_, fun hmode hfits => ?_,
      fun hmode hfits => ?_⟩
    · have hadmit : admission k i (slotJudged (lineOf k) x s) = admitStation k ref u := by
        rw [← hu'] at hcheck ⊢
        exact admission_passed hmode hcheck
      have hp : profileOf (joinStation k (some ref) u) k = some p := joinStation_profileOf (by
        rw [← hresolve, hu]
        cases ref <;> rfl)
      rw [hadmit] at hrow
      refine ⟨_, hrow, ?_, ?_, ?_, fun n j hn hwhole => ⟨fun d hd => ?_, fun o j' hd hj' ho => ?_⟩, by decide,
        fun gp hline hgp => admitStation_group hline hp hgp, fun hk ws hws => ?_⟩
      · exact (admitStation_inner (inner_stations _) (fun _ _ _ _ h => h) hp rfl).trans
          (hrecord (joinRecord (some ref)))
      · have hlines : (admitStation k ref u).lines = (joinStation k (some ref) u).lines :=
          admitStation_inner (inner_lines _) (fun _ _ _ _ h => h) hp rfl
        rw [hlines, joinStation, updLine_lines, ByLine.get_set_self]
        show insertStation k (u.lines.get (lineOf k)).next = _
        rw [hunext]
      · have hlimits := admitStation_inner (inner_staleLimits _) (fun _ _ _ _ h => h) hp rfl
        rw [hlimits, ByStn.get_set_self, hulines, ByLine.get_set_self]
        rfl
      · subst hn
        obtain ⟨hkind', hhome, hraw, hquality, hcounter, hage, howner⟩ :=
          admitStation_input hp hd (by rwa [hlength])
        exact ⟨hkind', hhome, hraw, hquality, hcounter, hage, howner⟩
      · subst hn
        subst hj'
        obtain ⟨hkind', hhome, hraw, hquality, hcounter, hage, howner⟩ :=
          admitStation_output hp hd ho (by rwa [hlength])
        refine ⟨hkind', hhome, hraw, hquality, hcounter, hage, howner, fun _ hk _ => ?_⟩
        have hplace : p.base + j = outputPoint p (j - p.inputs.length) := by
          have hj : p.inputs.length ≤ j := List.getElem?_eq_none_iff.1 hd
          unfold outputPoint
          omega
        rw [hplace] at hwhole ⊢
        exact admitStation_value hk hp ho (by rwa [hlength])
      · rw [admitStation_outputs hk hp, admitOut_resynced p hws]
    · have hrefuse : admission k i (slotJudged (lineOf k) x s) = refuseStation k why u := by
        rw [← hu'] at hcheck ⊢
        exact admission_failed hmode hcheck
      rw [hrefuse] at hrow
      refine ⟨_, hrow, ?_, by rw [refuseStation_lines, hunext]⟩
      rw [refuseStation_stations]
      exact hrecord (fun r => { r with state := .refused, refusal := some why, lastCause := .refused })
    · have hadmit : admission k i (slotJudged (lineOf k) x s) = admitCommission k i u := by
        rw [admission_commission (s := slotJudged (lineOf k) x s) hmode, hu', hfits]
        rfl
      obtain ⟨hstations, hraw, houtputs⟩ := admitCommission_fields (s := u) (k := k) (by rw [hu]; exact hmode) i
      rw [hadmit] at hrow
      exact ⟨_, hrow, hstations.trans (hrecord (joinRecord none)), hraw, houtputs⟩
    · have hrefuse : admission k i (slotJudged (lineOf k) x s) = refuseStation k .budget u := by
        rw [admission_commission (s := slotJudged (lineOf k) x s) hmode, hu', hfits]
        rfl
      rw [hrefuse] at hrow
      refine ⟨_, hrow, ?_, by rw [refuseStation_lines, hunext]⟩
      rw [refuseStation_stations]
      exact hrecord (fun r => { r with state := .refused, refusal := some .budget, lastCause := .refused })
  · rw [rollAnswerGood_row hheld, hverdict, hjudge]
    dsimp only
    rw [if_neg]
    · rfl
    · rcases hunwanted with h | h
      · simp [h]
      · simp [Option.isNone_iff_eq_none, Option.isSome_iff_ne_none.1 h]
  · rw [probeMiss_row hheld, hverdict, hjudge]
    rfl

end Sys2Proof.Proofs
end
